-- ==== Sys2Proof/Word.lean ====
section
/-! DEFINITION. The bit-vector types of the block's ports and of its table cells (00_scope.md R7, R10). -/

namespace Sys2Proof

/-- A request word, `req[31:0]` (30_encoding.md R42). Bit 0 is the least significant (00_scope.md R10). -/
abbrev Word := BitVec 32

/-- A result field, 16 bits unsigned (30_encoding.md R46). -/
abbrev Count := BitVec 16

/-- A cell of the timing ROM, 8 bits unsigned (20_memory.md R28). -/
abbrev Byte := BitVec 8

end Sys2Proof
end

