-- ==== Sys2Proof/Config.lean ====
section
/-! DEFINITION. The build-time configuration `Cfg` (00_scope.md R7), its well-formedness (R8), the OPEN values as opaque
constants, and the one free value of the model. Nothing here picks a number for an OPEN parameter. -/

namespace Sys2Proof

/-- One row of the asynchronous table: four 8-bit cycle counts, in the order of 20_memory.md R28. -/
structure AsyncRow where
  assert : Byte
  deskew : Byte
  hold   : Byte
  glitch : Byte
deriving DecidableEq, Repr, Inhabited

/-- The fields of the configuration record that no source gives a value (00_scope.md R7). `FASTEST_MAX` is the decided
constant 25 (42_sync_calc.md R75) and stands with the fixed constants, as R7 allows. -/
structure CfgData where
  /-- `CLK_NUM`, the numerator of the clock scale. -/
  clkNum       : Nat
  /-- `CLK_DEN`, the denominator of the clock scale. -/
  clkDen       : Nat
  /-- `FPGA_OVERHEAD`, in cycles. -/
  fpgaOverhead : Nat
  /-- `PERIOD_MAX`, the largest period the block accepts. -/
  periodMax    : Nat
  /-- `ASYNC_ROW1`, the 3.3 MB/s row. -/
  asyncRow1    : AsyncRow
  /-- `ASYNC_ROW3`, the "safe" row. -/
  asyncRow3    : AsyncRow
  /-- `ASYNC_ROW4`, the "turbo" row. -/
  asyncRow4    : AsyncRow
deriving DecidableEq, Repr

/-- 00_scope.md R8. Clauses (b) and (c) hold by the types. (f) is `Clks(PERIOD_MAX) <= 65535`, with `Clks` written out
(42_sync_calc.md R68). -/
abbrev CfgData.WellFormed (c : CfgData) : Prop :=
  1 ≤ c.clkNum ∧ 1 ≤ c.clkDen ∧
  80 ≤ c.periodMax ∧ c.periodMax ≤ 32767 ∧
  (8 ≤ c.asyncRow1.assert.toNat ∧ c.asyncRow1.assert.toNat ≤ 23) ∧
  (5 ≤ c.asyncRow1.deskew.toNat ∧ c.asyncRow1.deskew.toNat ≤ 15) ∧
  (5 ≤ c.asyncRow1.hold.toNat ∧ c.asyncRow1.hold.toNat ≤ 6) ∧
  (5 ≤ c.asyncRow1.glitch.toNat ∧ c.asyncRow1.glitch.toNat ≤ 12) ∧
  (c.periodMax * c.clkNum + c.clkDen / 2) / c.clkDen ≤ 65535

/-- A well-formed configuration. The model is stated only over these (00_scope.md R8), so an ill-formed one cannot be
built (60_exceptions.md R96; log 10). -/
structure Cfg extends CfgData where
  wf : toCfgData.WellFormed
deriving DecidableEq, Repr

/-! ## The OPEN values (00_scope.md R7; 93_implementation_defined.md U1 to U4, U11)

Uninterpreted: a proof can use none of their values. -/

opaque Config.rawClkNum : Nat
opaque Config.rawClkDen : Nat
opaque Config.rawFpgaOverhead : Nat
opaque Config.rawPeriodMax : Nat
opaque Config.rawAsyncRow1 : AsyncRow
opaque Config.rawAsyncRow3 : AsyncRow
opaque Config.rawAsyncRow4 : AsyncRow

/-- FREE VALUE. The 65 output wires, packed as 30_encoding.md R46 packs them, while the request inputs are changing or
undriven (70_reset_and_hazards.md R98; 93_implementation_defined.md U12 "any value"; log 4). -/
opaque Config.unspecifiedRsp : Nat → BitVec 65

/-- `x` brought into `lo..hi`. The lower bound is added last, so that a comparison with a numeral up to `lo` can be
evaluated whatever `x` is. -/
def clampNat (lo hi x : Nat) : Nat := min (x - lo) (hi - lo) + lo

/-- A cell brought into `lo..hi`. -/
def clampByte (lo hi : Nat) (x : Byte) : Byte := BitVec.ofNat 8 (clampNat lo hi x.toNat)

/-- The largest `CLK_NUM` that 00_scope.md R8 (f) leaves for a denominator and a largest period. -/
def maxClkNum (den periodMax : Nat) : Nat := (65536 * den - 1 - den / 2) / periodMax

/-- A configuration record brought into the bounds of 00_scope.md R8. It leaves a well-formed record as it is
(`Laws.CfgData_clamp_of_wellFormed`), so every well-formed configuration is reached. -/
def CfgData.clamp (c : CfgData) : CfgData :=
  let den := (c.clkDen - 1) + 1
  let pm := clampNat 80 32767 c.periodMax
  { clkNum := clampNat 1 (maxClkNum den pm) c.clkNum
    clkDen := den
    fpgaOverhead := c.fpgaOverhead
    periodMax := pm
    asyncRow1 := { assert := clampByte 8 23 c.asyncRow1.assert
                   deskew := clampByte 5 15 c.asyncRow1.deskew
                   hold := clampByte 5 6 c.asyncRow1.hold
                   glitch := clampByte 5 12 c.asyncRow1.glitch }
    asyncRow3 := c.asyncRow3
    asyncRow4 := c.asyncRow4 }

theorem clampNat_bounds {lo hi : Nat} (x : Nat) (h : lo ≤ hi) : lo ≤ clampNat lo hi x ∧ clampNat lo hi x ≤ hi := by
  unfold clampNat; omega

theorem clampByte_bounds {lo hi : Nat} (x : Byte) (h : lo ≤ hi) (h8 : hi < 256) :
    lo ≤ (clampByte lo hi x).toNat ∧ (clampByte lo hi x).toNat ≤ hi := by
  have := clampNat_bounds x.toNat h
  simp only [clampByte, BitVec.toNat_ofNat]
  rw [Nat.mod_eq_of_lt (by omega)]
  exact this

theorem one_le_maxClkNum {den pm : Nat} (hd : 1 ≤ den) (h0 : 1 ≤ pm) (hp : pm ≤ 32767) : 1 ≤ maxClkNum den pm := by
  unfold maxClkNum
  rw [Nat.le_div_iff_mul_le (by omega)]
  omega

theorem clks_le_of_le_maxClkNum {num den pm : Nat} (hd : 1 ≤ den) (h : num ≤ maxClkNum den pm) :
    (pm * num + den / 2) / den ≤ 65535 := by
  have h1 : pm * num ≤ 65536 * den - 1 - den / 2 :=
    (Nat.mul_le_mul_left pm h).trans (Nat.mul_div_le _ _)
  have h2 : (pm * num + den / 2) / den < 65536 := by
    rw [Nat.div_lt_iff_lt_mul (by omega)]
    omega
  omega

/-- The clamped record satisfies 00_scope.md R8. -/
theorem CfgData.clamp_wellFormed (c : CfgData) : c.clamp.WellFormed := by
  have hp := clampNat_bounds (lo := 80) (hi := 32767) c.periodMax (by omega)
  have hm := one_le_maxClkNum (den := (c.clkDen - 1) + 1) (by omega) (by omega : 1 ≤ clampNat 80 32767 c.periodMax) hp.2
  have hn := clampNat_bounds c.clkNum hm
  exact ⟨hn.1, by simp [CfgData.clamp], hp.1, hp.2, clampByte_bounds _ (by omega) (by omega),
    clampByte_bounds _ (by omega) (by omega), clampByte_bounds _ (by omega) (by omega),
    clampByte_bounds _ (by omega) (by omega), clks_le_of_le_maxClkNum (Nat.le_add_left _ _) hn.2⟩

/-- The block's configuration: some well-formed one, no more is known (log 2). -/
def Config.build : Cfg :=
  { toCfgData := CfgData.clamp
      { clkNum := Config.rawClkNum
        clkDen := Config.rawClkDen
        fpgaOverhead := Config.rawFpgaOverhead
        periodMax := Config.rawPeriodMax
        asyncRow1 := Config.rawAsyncRow1
        asyncRow3 := Config.rawAsyncRow3
        asyncRow4 := Config.rawAsyncRow4 }
    wf := CfgData.clamp_wellFormed _ }

end Sys2Proof
end

