-- ==== Sys2Proof/Machine/Constants.lean ====
section
/-! DEFINITION. The fixed constants (10_state.md R18), taken as normative although the one source is unaudited (R19; log 7).
`FASTEST_MAX` is decided by 42_sync_calc.md R75. -/

namespace Sys2Proof.Machine

/-- `SYNC_THRESHOLD`. -/
def syncThreshold : Nat := 35
/-- `PERIOD_MIN_NEG`. -/
def periodMinNeg : Nat := 25
/-- `SYNC_DESKEW_10`. -/
def syncDeskew10 : Count := 2
/-- `SYNC_DESKEW_5`. -/
def syncDeskew5 : Count := 5
/-- `SYNC_HOLD_10`. -/
def syncHold10 : Count := 2
/-- `SYNC_HOLD_33NS`. -/
def syncHold33ns : Count := 3
/-- `SYNC_HOLD_5`. -/
def syncHold5 : Count := 5
/-- `FASTEST_MAX` (42_sync_calc.md R75; D17; log 7). -/
def fastestMax : Nat := 25
/-- `SYNC_ASSERT_RD_FAST` (42_sync_calc.md R76). -/
def syncAssertRdFast : Count := 4
/-- `SEL_TIMEOUT_DEFAULT`. -/
def selTimeoutDefault : Count := 36
/-- `SEL_TIMEOUT_FAST`. -/
def selTimeoutFast : Count := 4
/-- `ASYNC_ROWS`. -/
def asyncRows : Nat := 5
/-- `ASYNC_ROW0`. -/
def asyncRow0 : AsyncRow := { assert := 23, deskew := 15, hold := 6, glitch := 12 }
/-- `ASYNC_ROW2`. -/
def asyncRow2 : AsyncRow := { assert := 8, deskew := 5, hold := 5, glitch := 5 }

end Sys2Proof.Machine
end

