-- ==== Sys2Proof/Machine/Operands.lean ====
section
/-! DEFINITION. The three operand checks (30_encoding.md R44: "checked by the operation's own rule"). Each answers the
accepted operand, or `none`, where the operation raises InvalidConfiguration. None clamps (40_async_lookup.md R61). -/

namespace Sys2Proof.Machine

/-- The speed-class index lies in 0..4 (40_async_lookup.md R60). -/
def speedClass (a : Int) : Option Nat :=
  if 0 ≤ a ∧ a.toNat < asyncRows then some a.toNat else none

/-- `CheckPeriod(p)`: `0 <= p <= PERIOD_MAX` (41_sync_select.md R64). -/
def checkPeriod (c : Cfg) (p : Int) : Option Nat :=
  if 0 ≤ p ∧ p.toNat ≤ c.periodMax then some p.toNat else none

/-- The fast-mode flag: 0 is false, 1 is true, nothing else is a flag (43_selection_timeout.md R79, R80). -/
def fastModeFlag (a : Int) : Option Bool :=
  if a = 0 then some false else if a = 1 then some true else none

end Sys2Proof.Machine
end

