-- ==== Sys2Proof/Syntax.lean ====
section
/-! DEFINITION. The seven operations (30_encoding.md R43), one constructor per row of spec/opcode_table.json, each carrying
its integer operands (R50): operand A as the signed integer `a` (R44), operand B as the unsigned integer `b` (R45). -/

namespace Sys2Proof

inductive Instr where
  /-- `op` 0, ASYNC_TIMING: the speed-class index (40_async_lookup.md R59). -/
  | asyncTiming (speedClass : Int)
  /-- `op` 1, SYNC_DESKEW (41_sync_select.md R63). -/
  | syncDeskew (period : Int)
  /-- `op` 2, SYNC_HOLD (41_sync_select.md R65). -/
  | syncHold (period : Int)
  /-- `op` 3, PERIOD_TO_CLKS (42_sync_calc.md R69). -/
  | periodToClks (period : Int)
  /-- `op` 4, SYNC_ASSERT_WR: the only operation that uses operand B (42_sync_calc.md R71). -/
  | syncAssertWr (period : Int) (deskew : Nat)
  /-- `op` 5, SYNC_ASSERT_RD (42_sync_calc.md R74). -/
  | syncAssertRd (period : Int)
  /-- `op` 6, SEL_TIMEOUT: 0 is false, 1 is true (43_selection_timeout.md R79). -/
  | selTimeout (fastMode : Int)
deriving DecidableEq, Repr

end Sys2Proof
end

