-- ==== Sys2Proof/WellFormed.lean ====
section
/-! DEFINITION. Which terms of `Instr` a request word can spell: operand A fits 16 bits signed and operand B 8 bits unsigned
(30_encoding.md R42, R44, R45, R51). An operand outside its operation's legal range is well-formed here: that range is
checked by the operation (R44). -/

namespace Sys2Proof

/-- `a` in -32768..32767 (30_encoding.md R44, R51). -/
def fitsOperandA (a : Int) : Bool := decide (-32768 ≤ a) && decide (a ≤ 32767)

/-- `b` in 0..255 (30_encoding.md R45, R51). -/
def fitsOperandB (b : Nat) : Bool := decide (b ≤ 255)

/-- The requests of 30_encoding.md R51 that have an encoding. -/
def Instr.wellFormed : Instr → Bool
  | .asyncTiming a => fitsOperandA a
  | .syncDeskew p => fitsOperandA p
  | .syncHold p => fitsOperandA p
  | .periodToClks p => fitsOperandA p
  | .syncAssertWr p d => fitsOperandA p && fitsOperandB d
  | .syncAssertRd p => fitsOperandA p
  | .selTimeout a => fitsOperandA a

end Sys2Proof
end

