-- ==== Sys2Proof/Decode.lean ====
section
/-! DEFINITION. Decoding a request word (30_encoding.md R42 to R45, R49, R50), and after it the encoder (R51) and the match
and mask columns of spec/opcode_table.json. -/

namespace Sys2Proof

/-! ## The fields of a request word (30_encoding.md R42) -/

/-- `op = req[31:29]`. -/
def opField (w : Word) : BitVec 3 := w.extractLsb' 29 3

/-- `rsv = req[28:24]`. -/
def rsvField (w : Word) : BitVec 5 := w.extractLsb' 24 5

/-- `B = req[23:16]`. -/
def bField (w : Word) : BitVec 8 := w.extractLsb' 16 8

/-- `A = req[15:0]`. -/
def aField (w : Word) : BitVec 16 := w.extractLsb' 0 16

/-- `signed16(v)` of 00_scope.md R10: `v` when `v < 32768`, otherwise `v - 65536`. -/
def signed16 (v : BitVec 16) : Int :=
  if v.toNat < 32768 then (v.toNat : Int) else (v.toNat : Int) - 65536

/-- Operand A, `a = signed16(req[15:0])` (30_encoding.md R44). -/
def operandA (w : Word) : Int := signed16 (aField w)

/-- Operand B, `b = req[23:16]` as an unsigned integer (30_encoding.md R45). -/
def operandB (w : Word) : Nat := (bField w).toNat

/-! ## Decoding -/

/-- Why a word is ill-formed: the three cases of 30_encoding.md R49. They are not visible on the interface
(60_exceptions.md R83, R85). -/
inductive DecodeError where
  /-- R49 (a), cause E1: `op == 7`. -/
  | reservedOperation
  /-- R49 (b), cause E2: `rsv != 0`. -/
  | reservedBits
  /-- R49 (c), cause E3: `op != 4` and `B != 0`. -/
  | operandBSet
deriving DecidableEq, Repr

/-- The operation of an operation code, applied to its operands (30_encoding.md R43). Code 7 has none. -/
def operationOf (op : BitVec 3) (a : Int) (b : Nat) : Option Instr :=
  match op.toNat with
  | 0 => some (.asyncTiming a)
  | 1 => some (.syncDeskew a)
  | 2 => some (.syncHold a)
  | 3 => some (.periodToClks a)
  | 4 => some (.syncAssertWr a b)
  | 5 => some (.syncAssertRd a)
  | 6 => some (.selTimeout a)
  | _ => none

/-- The decoder, total on every word (30_encoding.md R50); it rejects exactly the ill-formed words, by name (R49). -/
def decode (w : Word) : Except DecodeError Instr :=
  match operationOf (opField w) (operandA w) (operandB w) with
  | none => .error .reservedOperation
  | some i =>
    if rsvField w ≠ 0 then .error .reservedBits
    else if opField w ≠ 4 ∧ bField w ≠ 0 then .error .operandBSet
    else .ok i

/-- What `decode` reads from an instruction of the opcode table whose bits are `w`, of which the table gives `nbits`. A
request is one 32-bit word defined by bit position, with no byte order (20_memory.md R35); bits above `nbits` are 0. -/
def tableWord (nbits w : Nat) : Word := BitVec.ofNat 32 (w % 2 ^ nbits)

/-- The instruction the decoder reads from the bits `w`. -/
def decodeTableWord (nbits w : Nat) : Option Instr :=
  match decode (tableWord nbits w) with
  | .ok i => some i
  | .error _ => none

/-! ## Encoding (30_encoding.md R51) -/

/-- The operation code of an operation (30_encoding.md R43). -/
def Instr.opcode : Instr → BitVec 3
  | .asyncTiming _ => 0
  | .syncDeskew _ => 1
  | .syncHold _ => 2
  | .periodToClks _ => 3
  | .syncAssertWr _ _ => 4
  | .syncAssertRd _ => 5
  | .selTimeout _ => 6

/-- Operand A of a request, as an integer. -/
def Instr.a : Instr → Int
  | .asyncTiming a => a
  | .syncDeskew p => p
  | .syncHold p => p
  | .periodToClks p => p
  | .syncAssertWr p _ => p
  | .syncAssertRd p => p
  | .selTimeout a => a

/-- Operand B of a request; 0 where the operation does not use it (30_encoding.md R45). -/
def Instr.b : Instr → Nat
  | .asyncTiming _ => 0
  | .syncDeskew _ => 0
  | .syncHold _ => 0
  | .periodToClks _ => 0
  | .syncAssertWr _ d => d
  | .syncAssertRd _ => 0
  | .selTimeout _ => 0

/-- The word with the given fields, `rsv` 0 (30_encoding.md R42). -/
def packFields (op : BitVec 3) (b : BitVec 8) (a : BitVec 16) : Word := op ++ 0#5 ++ b ++ a

/-- `encode(op, a, b) = (op << 29) | (b << 16) | (a mod 65536)` (30_encoding.md R51). -/
def encode (i : Instr) : Word := packFields i.opcode (BitVec.ofNat 8 i.b) (BitVec.ofInt 16 i.a)

/-! ## The opcode table (spec/opcode_table.json; 30_encoding.md R51) -/

/-- The mnemonic of an operation, as the table spells it. -/
def Instr.mnemonic : Instr → String
  | .asyncTiming _ => "ASYNC_TIMING"
  | .syncDeskew _ => "SYNC_DESKEW"
  | .syncHold _ => "SYNC_HOLD"
  | .periodToClks _ => "PERIOD_TO_CLKS"
  | .syncAssertWr _ _ => "SYNC_ASSERT_WR"
  | .syncAssertRd _ => "SYNC_ASSERT_RD"
  | .selTimeout _ => "SEL_TIMEOUT"

/-- One row of spec/opcode_table.json. -/
structure OpcodeRow where
  mnemonic  : String
  matchBits : Word
  maskBits  : Word
deriving DecidableEq, Repr

/-- The seven rows of spec/opcode_table.json, with their `match` and `mask` columns. -/
def opcodeTable : List OpcodeRow :=
  [ ⟨"ASYNC_TIMING", 0x00000000#32, 0xFFFF0000#32⟩,
    ⟨"SYNC_DESKEW", 0x20000000#32, 0xFFFF0000#32⟩,
    ⟨"SYNC_HOLD", 0x40000000#32, 0xFFFF0000#32⟩,
    ⟨"PERIOD_TO_CLKS", 0x60000000#32, 0xFFFF0000#32⟩,
    ⟨"SYNC_ASSERT_WR", 0x80000000#32, 0xFF000000#32⟩,
    ⟨"SYNC_ASSERT_RD", 0xA0000000#32, 0xFFFF0000#32⟩,
    ⟨"SEL_TIMEOUT", 0xC0000000#32, 0xFFFF0000#32⟩ ]

/-- A word selects a row when `(w & mask) == match` (30_encoding.md R51). -/
def OpcodeRow.selects (r : OpcodeRow) (w : Word) : Bool := (w &&& r.maskBits) == r.matchBits

end Sys2Proof
end

