-- ==== Sys2Proof/Machine/State.lean ====
section
/-! DEFINITION. What the machine holds. The spec gives the block no state at all (10_state.md R13 to R17, R22): no register,
no program counter, no flag, no control register, no writable memory. `State` carries the three things one evaluation
depends on or drives (70_reset_and_hazards.md R98): the build-time configuration, the input port and the output ports;
and one counter of the model's own (log 1, log 4). -/

namespace Sys2Proof.Machine

/-- The input port `req[31:0]` (30_encoding.md R48). -/
inductive ReqPort where
  /-- The inputs are changing or undriven (70_reset_and_hazards.md R98; 93_implementation_defined.md U12). -/
  | unsettled
  /-- The inputs hold a steady word. -/
  | settled (w : Word)
deriving DecidableEq, Repr

/-- The output ports `rsp_err`, `rsp_r0` to `rsp_r3` (30_encoding.md R48). -/
structure Wires where
  err : Bool
  r0  : Count
  r1  : Count
  r2  : Count
  r3  : Count
deriving DecidableEq, Repr

/-- The response of an operation: four results, or the one error, which has no payload (00_scope.md R12;
30_encoding.md R46). -/
inductive Response where
  | ok (r0 r1 r2 r3 : Count)
  | invalidConfiguration
deriving DecidableEq, Repr

/-- Why the model stops with a fault. InvalidConfiguration is NOT one: it is a response (60_exceptions.md R96). -/
inductive Fault where
  /-- Raised by the meaning of ASYNC_TIMING if its `MemRead` lay outside cells 0..19, where `MemRead` is not defined
  (20_memory.md R29 "a model error, never a value"; U16). No operand reaches it (R34, R36). Safe. -/
  | memReadOutsideRom
deriving DecidableEq, Repr

/-- Why the model refuses. -/
inductive Refusal where
  /-- Raised by `exec`'s arm of an instruction without a meaning; no arm is left that does. Safe. -/
  | notModelled (mnemonic : String)
  /-- Raised by `State.build` for a configuration that is not well-formed, before any request is considered
  (60_exceptions.md R96; 00_scope.md R8; U15). No step raises it. Safe. -/
  | illFormedConfiguration
deriving DecidableEq, Repr

/-- The contents of an address space: pairs of a cell address and the cell. An address that is not listed does not exist
and reads as nothing (20_memory.md R34; log 9). -/
abbrev Memory := List Host.Cell

/-- The canonical form: addresses strictly rising. Since an unlisted address reads as nothing, no entry can equal what an
unlisted address reads as. -/
abbrev Memory.wf (m : Memory) : Prop := m.Pairwise (fun x y => x.1 < y.1)

structure State where
  /-- The build-time configuration (00_scope.md R7; 10_state.md R21 "never mutated"). -/
  cfg      : Cfg
  /-- The input port. -/
  req      : ReqPort
  /-- The output ports. -/
  rsp      : Wires
  /-- The model's own: how many free values of `Config.unspecifiedRsp` have been used (log 4). -/
  freeUsed : Nat
deriving DecidableEq, Repr

/-- The output ports from the packed word `rsp = {err, r0, r1, r2, r3}` (30_encoding.md R46). -/
def Wires.ofPacked (w : BitVec 65) : Wires :=
  { err := w.getLsbD 64
    r0 := w.extractLsb' 48 16
    r1 := w.extractLsb' 32 16
    r2 := w.extractLsb' 16 16
    r3 := w.extractLsb' 0 16 }

/-- The machine right after reset. There is no reset input and nothing to set (10_state.md R22; 70_reset_and_hazards.md
R97): the configuration is as built, no request is presented yet (DESIGN CHOICE, log 3), and so the outputs are not
specified (R22, last row; log 4). -/
def State.reset : State :=
  { cfg := Config.build
    req := .unsettled
    rsp := Wires.ofPacked (Config.unspecifiedRsp 0)
    freeUsed := 1 }

end Sys2Proof.Machine
end

