-- ==== Sys2Proof/Machine/Flags.lean ====
section
/-! DEFINITION. The block has no status flag (10_state.md R15). The one flag-like output is `err`, computed here from the
response of the present request and from nothing else. -/

namespace Sys2Proof.Machine

/-- `err = 1` when and only when the operation raised InvalidConfiguration (10_state.md R15; 30_encoding.md R46). -/
def errFlag : Response → Bool
  | .ok _ _ _ _ => false
  | .invalidConfiguration => true

end Sys2Proof.Machine
end

