-- ==== Sys2Proof/Machine/Ops.lean ====
section
/-! DEFINITION. The shared operations: the timing ROM and `MemRead`, the two ways an operation ends (`return` and
`raise InvalidConfiguration`), the conversion `Clks`, the assertion budget, and the ports. -/

namespace Sys2Proof.Machine

/-- How a step ends. -/
abbrev Result := Host.Outcome State Fault Refusal

/-! ## The timing ROM (20_memory.md R28, R29) -/

/-- The four cells of a row, from cell address `base`, in the order assert, deskew, hold, glitch. -/
def rowCells (base : Nat) (r : AsyncRow) : Memory :=
  [(base, r.assert), (base + 1, r.deskew), (base + 2, r.hold), (base + 3, r.glitch)]

/-- The 20 cells of the timing ROM (20_memory.md R28): row `i` occupies cells `4*i` to `4*i+3`. -/
def romOf (c : Cfg) : Memory :=
  rowCells 0 asyncRow0 ++ rowCells 4 c.asyncRow1 ++ rowCells 8 asyncRow2 ++ rowCells 12 c.asyncRow3 ++
    rowCells 16 c.asyncRow4

/-- The block's only memory. It follows from the configuration, so it is not stored twice (log 9). -/
def State.rom (s : State) : Memory := romOf s.cfg

/-- One cell; nothing at an address that does not exist. -/
def Memory.read (m : Memory) (addr : Nat) : Option Byte := m.lookup addr

/-- The cells at `addr`, `addr+1`, ..., lowest address first; nothing if one of them does not exist. -/
def readCells (m : Memory) (addr : Nat) : Nat → Option (List Byte)
  | 0 => some []
  | n + 1 =>
    match m.read addr, readCells m (addr + 1) n with
    | some c, some cs => some (c :: cs)
    | _, _ => none

/-- `MemRead(addr, n)` (20_memory.md R29): defined only for `n >= 1` and addresses that exist. -/
def memRead (m : Memory) (addr n : Nat) : Option (List Byte) :=
  if n = 0 then none else readCells m addr n

/-! ## Responses and the output ports (30_encoding.md R46, R47) -/

/-- The ports while they carry a response; on an error the four result ports are 0 (30_encoding.md R46). -/
def Response.wires (r : Response) : Wires :=
  match r with
  | .ok r0 r1 r2 r3 => { err := errFlag r, r0 := r0, r1 := r1, r2 := r2, r3 := r3 }
  | .invalidConfiguration => { err := errFlag r, r0 := 0, r1 := 0, r2 := 0, r3 := 0 }

/-- What a caller reads off the ports: `err` first, and the results only if it is 0 (70_reset_and_hazards.md R106). -/
def Wires.response (o : Wires) : Response :=
  if o.err then .invalidConfiguration else .ok o.r0 o.r1 o.r2 o.r3

/-- The packed form `rsp = {err, r0, r1, r2, r3}` (30_encoding.md R46). -/
def Wires.packed (o : Wires) : BitVec 65 :=
  BitVec.ofBool o.err ++ o.r0 ++ o.r1 ++ o.r2 ++ o.r3

/-- The outputs take the response of the present request; nothing else changes (70_reset_and_hazards.md R98). -/
def State.respond (s : State) (r : Response) : State := { s with rsp := r.wires }

/-- `return (r0, r1, r2, r3)` (00_scope.md R11). -/
def returnFour (r0 r1 r2 r3 : Count) (s : State) : Result := .next (s.respond (.ok r0 r1 r2 r3))

/-- `return v`, short for `return (v, 0, 0, 0)` (00_scope.md R11; 30_encoding.md R47). -/
def returnOne (v : Count) (s : State) : Result := returnFour v 0 0 0 s

/-- TAKING THE EXCEPTION: `raise InvalidConfiguration` (60_exceptions.md R82). It saves nothing, changes no mode and
transfers control nowhere (R86): the whole of it is the error response. There is no return from it, because there is
nothing to return from (R87). -/
def raiseInvalidConfiguration (s : State) : Result := .next (s.respond .invalidConfiguration)

/-! ## The synchronous cycle calculator (42_sync_calc.md) -/

/-- `Clks(p) = (p * CLK_NUM + CLK_DEN / 2) / CLK_DEN`, both divisions floor (42_sync_calc.md R68). -/
def clks (c : Cfg) (p : Nat) : Nat := (p * c.clkNum + c.clkDen / 2) / c.clkDen

/-- The assertion budget `n = Clks(p) - d - FPGA_OVERHEAD + 1`, which may be negative (42_sync_calc.md R71, R73). -/
def assertBudget (c : Cfg) (p d : Nat) : Int := (clks c p : Int) - d - c.fpgaOverhead + 1

/-- `if n < 0 then raise InvalidConfiguration` else `return n / 2`, floor (42_sync_calc.md R71, R73, R74). -/
def returnAssertion (n : Int) (s : State) : Result :=
  if n < 0 then raiseInvalidConfiguration s else returnOne (BitVec.ofNat 16 (n.toNat / 2)) s

/-! ## The caller's side of the ports, and what a step does with them -/

/-- The caller presents a word on `req` (70_reset_and_hazards.md R102). The outputs of the earlier evaluation stand until
the next step (DEDUCED, log 6). -/
def State.present (s : State) (w : Word) : State := { s with req := .settled w }

/-- The caller lets the request inputs change or go undriven (70_reset_and_hazards.md R98, R102). R98 leaves the outputs
unspecified from then on; that the model shows those of the earlier evaluation until the next step, which gives them a
free value, is the model's own: DESIGN CHOICE, unsafe, log 16. -/
def State.release (s : State) : State := { s with req := .unsettled }

/-- The word a step evaluates, if the inputs hold one. -/
def State.presented (s : State) : Option Word :=
  match s.req with
  | .unsettled => none
  | .settled w => some w

/-- The answer to an ill-formed word (30_encoding.md R49, R50). -/
def answerIllFormed (s : State) : Result := raiseInvalidConfiguration s

/-- While the request is changing or undriven the outputs are not specified (70_reset_and_hazards.md R98; U12): they take
the next free value (log 4). -/
def answerUnsettled (s : State) : Result :=
  .next { s with rsp := Wires.ofPacked (Config.unspecifiedRsp s.freeUsed), freeUsed := s.freeUsed + 1 }

/-! ## Building the block -/

/-- The block built with a configuration: refused, before any request is considered, if the configuration is not
well-formed (60_exceptions.md R96; 00_scope.md R8; U15). -/
def State.build (c : CfgData) : Result :=
  if h : c.WellFormed then .next { State.reset with cfg := { toCfgData := c, wf := h } }
  else .refused .illFormedConfiguration

end Sys2Proof.Machine
end

