-- ==== Sys2Proof/Machine/AsyncLookup.lean ====
section
/-! DEFINITION. ASYNC_TIMING (40_async_lookup.md). -/

namespace Sys2Proof.Machine

/-- ASYNC_TIMING (40_async_lookup.md R59 to R62): the index check comes before the ROM is addressed (R60); the four cells
of row `a` are zero-extended into the four results (30_encoding.md R47). -/
def execAsyncTiming (a : Int) (s : State) : Result :=
  match speedClass a with
  | none => raiseInvalidConfiguration s
  | some row =>
    match memRead s.rom (4 * row) 4 with
    | some [as, ds, ho, gl] =>
      returnFour (as.zeroExtend 16) (ds.zeroExtend 16) (ho.zeroExtend 16) (gl.zeroExtend 16) s
    | _ => .fault .memReadOutsideRom

end Sys2Proof.Machine
end

