-- ==== Sys2Proof/Machine/SelectionTimeout.lean ====
section
/-! DEFINITION. SEL_TIMEOUT (43_selection_timeout.md). -/

namespace Sys2Proof.Machine

/-- SEL_TIMEOUT (43_selection_timeout.md R79, R80). The block counts nothing: the result is a number for logic outside it
(60_exceptions.md R94). -/
def execSelTimeout (fastMode : Int) (s : State) : Result :=
  match fastModeFlag fastMode with
  | none => raiseInvalidConfiguration s
  | some true => returnOne selTimeoutFast s
  | some false => returnOne selTimeoutDefault s

end Sys2Proof.Machine
end

