-- ==== Sys2Proof/Machine/SyncCalc.lean ====
section
/-! DEFINITION. PERIOD_TO_CLKS, SYNC_ASSERT_WR and SYNC_ASSERT_RD (42_sync_calc.md). -/

namespace Sys2Proof.Machine

/-- PERIOD_TO_CLKS (42_sync_calc.md R69). The count fits its field by 00_scope.md R8 (f). -/
def execPeriodToClks (period : Int) (s : State) : Result :=
  match checkPeriod s.cfg period with
  | none => raiseInvalidConfiguration s
  | some p => returnOne (BitVec.ofNat 16 (clks s.cfg p)) s

/-- SYNC_ASSERT_WR (42_sync_calc.md R71 to R73). The deskew is the caller's: any value is taken (R72). -/
def execSyncAssertWr (period : Int) (deskew : Nat) (s : State) : Result :=
  match checkPeriod s.cfg period with
  | none => raiseInvalidConfiguration s
  | some p => returnAssertion (assertBudget s.cfg p deskew) s

/-- SYNC_ASSERT_RD (42_sync_calc.md R74 to R76): in the fastest class the formula is not evaluated. -/
def execSyncAssertRd (period : Int) (s : State) : Result :=
  match checkPeriod s.cfg period with
  | none => raiseInvalidConfiguration s
  | some p =>
    if p ≤ fastestMax then returnOne syncAssertRdFast s
    else returnAssertion (assertBudget s.cfg p 0) s

end Sys2Proof.Machine
end

