-- ==== Sys2Proof/Machine/SyncSelect.lean ====
section
/-! DEFINITION. SYNC_DESKEW and SYNC_HOLD (41_sync_select.md). -/

namespace Sys2Proof.Machine

/-- `Deskew(p)`: 2 below the threshold 35, 5 at or above it (41_sync_select.md R63). -/
def deskewOf (p : Nat) : Count :=
  if p < syncThreshold then syncDeskew10 else syncDeskew5

/-- `Hold(p)`: 2 at exactly 25, 3 at every other period below 35, 5 at or above 35 (41_sync_select.md R65). -/
def holdOf (p : Nat) : Count :=
  if p < syncThreshold then (if p = periodMinNeg then syncHold10 else syncHold33ns) else syncHold5

/-- SYNC_DESKEW (41_sync_select.md R63, R64). -/
def execSyncDeskew (period : Int) (s : State) : Result :=
  match checkPeriod s.cfg period with
  | none => raiseInvalidConfiguration s
  | some p => returnOne (deskewOf p) s

/-- SYNC_HOLD (41_sync_select.md R65, R64). -/
def execSyncHold (period : Int) (s : State) : Result :=
  match checkPeriod s.cfg period with
  | none => raiseInvalidConfiguration s
  | some p => returnOne (holdOf p) s

end Sys2Proof.Machine
end

