-- ==== Sys2Proof/Machine/Dispatch.lean ====
section
/-! DEFINITION. One arm per operation (30_encoding.md R43), each one call of its meaning. -/

namespace Sys2Proof.Machine

def exec (i : Instr) (s : State) : Host.Outcome State Fault Refusal :=
  match i with
  | .asyncTiming a => Sys2Proof.Machine.execAsyncTiming a s
  | .syncDeskew p => Sys2Proof.Machine.execSyncDeskew p s
  | .syncHold p => Sys2Proof.Machine.execSyncHold p s
  | .periodToClks p => Sys2Proof.Machine.execPeriodToClks p s
  | .syncAssertWr p d => Sys2Proof.Machine.execSyncAssertWr p d s
  | .syncAssertRd p => Sys2Proof.Machine.execSyncAssertRd p s
  | .selTimeout a => Sys2Proof.Machine.execSelTimeout a s

end Sys2Proof.Machine
end

