-- ==== Sys2Proof/Machine/Step.lean ====
section
/-! DEFINITION. One step is one evaluation of the block: `step(cfg, req) = Resolve(cfg, decode(req))`
(70_reset_and_hazards.md R98). It leaves the request inputs as they are: they are the caller's. -/

namespace Sys2Proof.Machine

/-- One evaluation. An ill-formed word is answered with the error (30_encoding.md R50), never stopped on. -/
def step (s : State) : Host.Outcome State Fault Refusal :=
  match s.presented with
  | none => answerUnsettled s
  | some w =>
    match decode w with
    | .error _ => answerIllFormed s
    | .ok i => exec i s

/-- `s` with the word presented on the request inputs, so that the next step evaluates exactly it (log 5). -/
def State.withFetchWord (s : State) (nbits w : Nat) : State := s.present (tableWord nbits w)

end Sys2Proof.Machine
end

