-- ==== Sys2Proof/Machine/Caller.lean ====
section
/-! DEFINITION. The caller's side: a run is a finite sequence of requests (70_reset_and_hazards.md R101, R102); the
pseudo-instructions are sequences a caller issues (30_encoding.md R54); the class names and the written form of a request
(20_memory.md R30; 30_encoding.md R53). None of this is an operation of the block. -/

namespace Sys2Proof.Machine

/-- One request: the caller presents the word and the block evaluates it. -/
def serve (s : State) (w : Word) : Result := step (s.present w)

/-- The responses to a sequence of requests, in order; the run ends early only where the model stops. -/
def serveAll (s : State) : List Word → List Response
  | [] => []
  | w :: ws =>
    match serve s w with
    | .next t => t.rsp.response :: serveAll t ws
    | _ => []

/-- The first result of a request and the block after it; nothing if the request failed. -/
def request (s : State) (i : Instr) : Option (Count × State) :=
  match serve s (encode i) with
  | .next t =>
    match t.rsp.response with
    | .ok r0 _ _ _ => some (r0, t)
    | .invalidConfiguration => none
  | _ => none

/-- The document's SyncTimingResult (30_encoding.md R54). -/
structure SyncTimingResult where
  deskew   : Count
  hold     : Count
  assertWr : Count
  assertRd : Count
deriving DecidableEq, Repr

/-- The pseudo-instruction `SYNC_TIMING p` (30_encoding.md R54): the deskew is obtained first and passed as operand B
(70_reset_and_hazards.md R103). It fails as a whole if one of its requests fails. -/
def syncTiming (s : State) (p : Int) : Option SyncTimingResult :=
  (request s (.syncDeskew p)).bind fun d =>
  (request d.2 (.syncHold p)).bind fun h =>
  (request h.2 (.syncAssertWr p d.1.toNat)).bind fun aw =>
  (request aw.2 (.syncAssertRd p)).bind fun ar =>
  some { deskew := d.1, hold := h.1, assertWr := aw.1, assertRd := ar.1 }

/-- The pseudo-instruction `SYNC_ASSERT_RD_GENERAL p` (30_encoding.md R54). -/
def syncAssertRdGeneral (s : State) (p : Int) : Result := serve s (encode (.syncAssertWr p 0))

/-- The names of the speed classes (20_memory.md R30). -/
inductive SpeedClassName where
  | mb1_5
  | mb3_3
  | mb5
  | safe
  | turbo
deriving DecidableEq, Repr

/-- List order is index order (20_memory.md R30, D14; log 7). -/
def classIndex : SpeedClassName → Nat
  | .mb1_5 => 0
  | .mb3_3 => 1
  | .mb5 => 2
  | .safe => 3
  | .turbo => 4

/-- The pseudo-instruction `ASYNC_TIMING <name>` (30_encoding.md R54). -/
def asyncTimingByName (s : State) (n : SpeedClassName) : Result := serve s (encode (.asyncTiming (classIndex n)))

/-- A request as 30_encoding.md R53 writes it: `MNEMONIC a` or `MNEMONIC a, b`, in decimal. -/
def renderRequest (i : Instr) : String :=
  match i with
  | .syncAssertWr p d => i.mnemonic ++ " " ++ toString p ++ ", " ++ toString d
  | .selTimeout 0 => i.mnemonic ++ " false"
  | .selTimeout 1 => i.mnemonic ++ " true"
  | _ => i.mnemonic ++ " " ++ toString i.a

/-- A response as 30_encoding.md R53 writes it; ASYNC_TIMING has four results, every other operation one (R47). -/
def renderResponse (i : Instr) (r : Response) : String :=
  match i, r with
  | _, .invalidConfiguration => "-> InvalidConfiguration"
  | .asyncTiming _, .ok r0 r1 r2 r3 =>
    "-> (" ++ toString r0.toNat ++ ", " ++ toString r1.toNat ++ ", " ++ toString r2.toNat ++ ", " ++ toString r3.toNat ++ ")"
  | _, .ok r0 _ _ _ => "-> " ++ toString r0.toNat

end Sys2Proof.Machine
end

