-- ==== Sys2Proof/Safety.lean ====
section
/-! DEFINITION. The terms claims use: the table of causes of the one error (60_exceptions.md R83), and what a sound output
is. -/

namespace Sys2Proof.Machine

/-- The lines of the table of 60_exceptions.md R83. The labels are names for that table only; they are not visible on the
interface. -/
inductive Cause where
  | e1 | e2 | e3 | e4 | e5 | e6 | e7 | e8
deriving DecidableEq, Repr

/-- The operation code of a word, as a number. -/
def opNumber (w : Word) : Nat := (opField w).toNat

/-- The five period operations (41_sync_select.md R64). -/
def IsPeriodOp (w : Word) : Prop := 1 ≤ opNumber w ∧ opNumber w ≤ 5

/-- The condition of a line of 60_exceptions.md R83, for a request word under a configuration. -/
def Cause.Applies : Cause → Cfg → Word → Prop
  | .e1, _, w => opNumber w = 7
  | .e2, _, w => rsvField w ≠ 0
  | .e3, _, w => opNumber w ≠ 4 ∧ operandB w ≠ 0
  | .e4, _, w => opNumber w = 0 ∧ (operandA w < 0 ∨ 4 < operandA w)
  | .e5, _, w => IsPeriodOp w ∧ operandA w < 0
  | .e6, c, w => IsPeriodOp w ∧ (c.periodMax : Int) < operandA w
  | .e7, c, w =>
      (opNumber w = 4 ∧ 0 ≤ operandA w ∧
        (clks c (operandA w).toNat : Int) - operandB w - c.fpgaOverhead + 1 < 0) ∨
      (opNumber w = 5 ∧ 25 < operandA w ∧ (clks c (operandA w).toNat : Int) - c.fpgaOverhead + 1 < 0)
  | .e8, _, w => opNumber w = 6 ∧ operandA w ≠ 0 ∧ operandA w ≠ 1

/-- Some line of 60_exceptions.md R83 matches the request. -/
def Rejected (c : Cfg) (w : Word) : Prop := ∃ e : Cause, e.Applies c w

/-- The outputs go with the request that the inputs hold: the error exactly for a rejected word (60_exceptions.md R83), no
count beside an error (R82), and no second, third or fourth count but for ASYNC_TIMING (30_encoding.md R47). It says
nothing while the inputs are unsettled (70_reset_and_hazards.md R98). -/
def State.Sound (s : State) : Prop :=
  ∀ w, s.req = .settled w →
    (s.rsp.err = true ↔ Rejected s.cfg w) ∧
    (s.rsp.err = true → s.rsp.r0 = 0 ∧ s.rsp.r1 = 0 ∧ s.rsp.r2 = 0 ∧ s.rsp.r3 = 0) ∧
    (opNumber w ≠ 0 → s.rsp.r1 = 0 ∧ s.rsp.r2 = 0 ∧ s.rsp.r3 = 0)

end Sys2Proof.Machine
end

