-- ==== Sys2Proof/Certificates/Slice0/Obligations.lean ====
section
/-! DEFINITION. The statements for the provers. A next state is written out in full, so that each statement about an
operation is at once its result, its completion and its frame: nothing but the outputs changes. -/

open Sys2Proof Sys2Proof.Machine

/-! ## ASYNC_TIMING -/

/-- 40_async_lookup.md R62. An accepted index completes with the four cells `4*i + f` of the ROM, zero-extended and
nothing else done to them; and the clock scale and the overhead play no part: two blocks with the same ROM give the same
outputs for every index. -/
def Obligations.AsyncTimingReturnsItsRowExactly : Prop :=
  (∀ (s : State) (a : Int), 0 ≤ a → a ≤ 4 →
    ∃ c0 c1 c2 c3 : Byte,
      s.rom.read (4 * a.toNat) = some c0 ∧ s.rom.read (4 * a.toNat + 1) = some c1 ∧
      s.rom.read (4 * a.toNat + 2) = some c2 ∧ s.rom.read (4 * a.toNat + 3) = some c3 ∧
      exec (.asyncTiming a) s =
        .next { s with rsp := ⟨false, c0.zeroExtend 16, c1.zeroExtend 16, c2.zeroExtend 16, c3.zeroExtend 16⟩ }) ∧
  (∀ (s s' : State) (a : Int), s.rom = s'.rom →
    ∃ o : Wires, exec (.asyncTiming a) s = .next { s with rsp := o } ∧ exec (.asyncTiming a) s' = .next { s' with rsp := o })

/-- The two rows the document gives as numbers (40_async_lookup.md R59, example; 95_test_vectors.md S1), under every
configuration. -/
def Obligations.AsyncTimingRowsZeroAndTwo : Prop :=
  ∀ s : State,
    exec (.asyncTiming 0) s = .next { s with rsp := ⟨false, 23, 15, 6, 12⟩ } ∧
    exec (.asyncTiming 2) s = .next { s with rsp := ⟨false, 8, 5, 5, 5⟩ }

/-- 40_async_lookup.md R60, R61: an index outside 0..4 is rejected, not clamped, and no operand at all makes the operation
address a cell that does not exist. -/
def Obligations.AsyncTimingRejectsOtherIndices : Prop :=
  (∀ (s : State) (a : Int), a < 0 ∨ 4 < a → exec (.asyncTiming a) s = .next { s with rsp := ⟨true, 0, 0, 0, 0⟩ }) ∧
  (∀ (s : State) (a : Int), exec (.asyncTiming a) s ≠ .fault .memReadOutsideRom)

/-! ## SYNC_DESKEW and SYNC_HOLD -/

/-- 41_sync_select.md R63, with the period check of R64. -/
def Obligations.SyncDeskewSelectsByThreshold : Prop :=
  ∀ (s : State) (p : Int),
    (0 ≤ p → p ≤ s.cfg.periodMax → p < 35 → exec (.syncDeskew p) s = .next { s with rsp := ⟨false, 2, 0, 0, 0⟩ }) ∧
    (0 ≤ p → p ≤ s.cfg.periodMax → 35 ≤ p → exec (.syncDeskew p) s = .next { s with rsp := ⟨false, 5, 0, 0, 0⟩ }) ∧
    (p < 0 ∨ (s.cfg.periodMax : Int) < p → exec (.syncDeskew p) s = .next { s with rsp := ⟨true, 0, 0, 0, 0⟩ })

/-- 41_sync_select.md R65, with the period check of R64. -/
def Obligations.SyncHoldSelectsThreeWays : Prop :=
  ∀ (s : State) (p : Int),
    (p = 25 → exec (.syncHold p) s = .next { s with rsp := ⟨false, 2, 0, 0, 0⟩ }) ∧
    (0 ≤ p → p ≤ s.cfg.periodMax → p < 35 → p ≠ 25 →
      exec (.syncHold p) s = .next { s with rsp := ⟨false, 3, 0, 0, 0⟩ }) ∧
    (0 ≤ p → p ≤ s.cfg.periodMax → 35 ≤ p → exec (.syncHold p) s = .next { s with rsp := ⟨false, 5, 0, 0, 0⟩ }) ∧
    (p < 0 ∨ (s.cfg.periodMax : Int) < p → exec (.syncHold p) s = .next { s with rsp := ⟨true, 0, 0, 0, 0⟩ })

/-- 41_sync_select.md R67: below 25 the policies apply as written, under every configuration. -/
def Obligations.PeriodsBelowTwentyFiveFollowThePolicies : Prop :=
  ∀ (s : State) (p : Int), 0 ≤ p → p ≤ 24 →
    exec (.syncDeskew p) s = .next { s with rsp := ⟨false, 2, 0, 0, 0⟩ } ∧
    exec (.syncHold p) s = .next { s with rsp := ⟨false, 3, 0, 0, 0⟩ }

/-- 41_sync_select.md R66: how the two selections go together, for every accepted period. -/
def Obligations.DeskewAndHoldAgreeAtTheThreshold : Prop :=
  ∀ (s : State) (p : Int), 0 ≤ p → p ≤ s.cfg.periodMax →
    ∃ d h : Count,
      exec (.syncDeskew p) s = .next { s with rsp := ⟨false, d, 0, 0, 0⟩ } ∧
      exec (.syncHold p) s = .next { s with rsp := ⟨false, h, 0, 0, 0⟩ } ∧
      (d = 2 ∨ d = 5) ∧ (h = 2 ∨ h = 3 ∨ h = 5) ∧ (d = 5 ↔ h = 5) ∧ (d = 5 ↔ 35 ≤ p) ∧ (h = 2 ↔ p = 25)

/-- 41_sync_select.md R64: the shared check. `PERIOD_MAX` lies in 80..32767; outside `0..PERIOD_MAX` all five period
operations are rejected, the write assertion with every deskew. -/
def Obligations.PeriodCheckRejectsForAllFive : Prop :=
  ∀ (s : State) (p : Int) (d : Nat), 80 ≤ s.cfg.periodMax ∧ s.cfg.periodMax ≤ 32767 ∧
    (p < 0 ∨ (s.cfg.periodMax : Int) < p →
      ∀ i, i = .syncDeskew p ∨ i = .syncHold p ∨ i = .periodToClks p ∨ i = .syncAssertWr p d ∨ i = .syncAssertRd p →
        exec i s = .next { s with rsp := ⟨true, 0, 0, 0, 0⟩ })

/-! ## The cycle calculator -/

/-- 42_sync_calc.md R68, R69: an accepted period completes with `(p * CLK_NUM + CLK_DEN / 2) / CLK_DEN`, which its 16-bit
field holds without loss; every other period is rejected. -/
def Obligations.PeriodToClksReturnsTheConversion : Prop :=
  ∀ (s : State) (p : Int),
    (0 ≤ p → p ≤ s.cfg.periodMax →
      ∃ v : Count, v.toNat = (p.toNat * s.cfg.clkNum + s.cfg.clkDen / 2) / s.cfg.clkDen ∧
        exec (.periodToClks p) s = .next { s with rsp := ⟨false, v, 0, 0, 0⟩ }) ∧
    (p < 0 ∨ (s.cfg.periodMax : Int) < p → exec (.periodToClks p) s = .next { s with rsp := ⟨true, 0, 0, 0, 0⟩ })

/-- 42_sync_calc.md R70: the laws of the conversion, read off the operation itself. (a) no wrap, (b) nearest, (c) a tie
goes up, and with an odd denominator there is no tie, (d) 0 gives 0, (e) non-decreasing, (f) a negative period is rejected,
(g) no division by zero. -/
def Obligations.ConversionLaws : Prop :=
  ∀ s : State, 1 ≤ s.cfg.clkDen ∧
    (∀ p : Int, p < 0 → exec (.periodToClks p) s = .next { s with rsp := ⟨true, 0, 0, 0, 0⟩ }) ∧
    ∃ f : Nat → Count,
      (∀ p : Nat, p ≤ s.cfg.periodMax → exec (.periodToClks p) s = .next { s with rsp := ⟨false, f p, 0, 0, 0⟩ }) ∧
      (∀ p : Nat, p ≤ s.cfg.periodMax →
        2 * (p * s.cfg.clkNum) < 2 * ((f p).toNat * s.cfg.clkDen) + s.cfg.clkDen ∧
        2 * ((f p).toNat * s.cfg.clkDen) ≤ 2 * (p * s.cfg.clkNum) + s.cfg.clkDen) ∧
      (∀ p k : Nat, p ≤ s.cfg.periodMax → 2 * (p * s.cfg.clkNum) = (2 * k + 1) * s.cfg.clkDen →
        s.cfg.clkDen % 2 = 0 ∧ (f p).toNat = k + 1) ∧
      f 0 = 0 ∧
      (∀ p q : Nat, p ≤ q → q ≤ s.cfg.periodMax → (f p).toNat ≤ (f q).toNat)

/-- 42_sync_calc.md R71, R72, R73: with `n = Clks(p) - d - FPGA_OVERHEAD + 1`, for every deskew of the caller's, related to
the period or not: a non-negative budget completes with `n / 2`, a negative one is rejected, which is when
`d + FPGA_OVERHEAD > Clks(p) + 1`; a period outside the range is rejected. -/
def Obligations.SyncAssertWrSplitsTheBudget : Prop :=
  ∀ (s : State) (p : Int) (d : Nat),
    (0 ≤ p → p ≤ s.cfg.periodMax → ∀ n : Int,
      n = (((p.toNat * s.cfg.clkNum + s.cfg.clkDen / 2) / s.cfg.clkDen : Nat) : Int) - d - s.cfg.fpgaOverhead + 1 →
      (0 ≤ n → ∃ v : Count, (v.toNat : Int) = n / 2 ∧
        exec (.syncAssertWr p d) s = .next { s with rsp := ⟨false, v, 0, 0, 0⟩ }) ∧
      (n < 0 → exec (.syncAssertWr p d) s = .next { s with rsp := ⟨true, 0, 0, 0, 0⟩ }) ∧
      (n < 0 ↔ (p.toNat * s.cfg.clkNum + s.cfg.clkDen / 2) / s.cfg.clkDen + 1 < d + s.cfg.fpgaOverhead)) ∧
    (p < 0 ∨ (s.cfg.periodMax : Int) < p → exec (.syncAssertWr p d) s = .next { s with rsp := ⟨true, 0, 0, 0, 0⟩ })

/-- 42_sync_calc.md R74, R75, R76: 4 for every accepted period up to 25, whatever the configuration, and the formula with
deskew 0, its rejection too, for every other accepted period; a period outside the range is rejected. -/
def Obligations.SyncAssertRdSpecialCasesTheFastestClass : Prop :=
  ∀ (s : State) (p : Int),
    (0 ≤ p → p ≤ 25 → exec (.syncAssertRd p) s = .next { s with rsp := ⟨false, 4, 0, 0, 0⟩ }) ∧
    (25 < p → p ≤ s.cfg.periodMax → ∀ n : Int,
      n = (((p.toNat * s.cfg.clkNum + s.cfg.clkDen / 2) / s.cfg.clkDen : Nat) : Int) - s.cfg.fpgaOverhead + 1 →
      (0 ≤ n → ∃ v : Count, (v.toNat : Int) = n / 2 ∧
        exec (.syncAssertRd p) s = .next { s with rsp := ⟨false, v, 0, 0, 0⟩ }) ∧
      (n < 0 → exec (.syncAssertRd p) s = .next { s with rsp := ⟨true, 0, 0, 0, 0⟩ })) ∧
    (p < 0 ∨ (s.cfg.periodMax : Int) < p → exec (.syncAssertRd p) s = .next { s with rsp := ⟨true, 0, 0, 0, 0⟩ })

/-- 42_sync_calc.md R78, last sentence; 95_test_vectors.md S6: above 25 the read assertion is the write assertion with
deskew 0, error cases included. -/
def Obligations.ReadAssertionIsWriteWithZeroDeskew : Prop :=
  ∀ (s : State) (p : Int), 25 < p → exec (.syncAssertRd p) s = exec (.syncAssertWr p 0) s

/-- 42_sync_calc.md R77, the budget property, over the outputs of the two operations: for every accepted pair, twice the
assertion plus the deskew plus the overhead is `Clks(p)` when `n` is odd and `Clks(p) + 1` when it is even. -/
def Obligations.BudgetIsMetWithinOneCycle : Prop :=
  ∀ (s : State) (p : Int) (d : Nat) (c : Count) (t : State), 0 ≤ p → p ≤ s.cfg.periodMax →
    exec (.periodToClks p) s = .next { s with rsp := ⟨false, c, 0, 0, 0⟩ } →
    d + s.cfg.fpgaOverhead ≤ c.toNat + 1 →
    exec (.syncAssertWr p d) s = .next t →
      t.rsp.err = false ∧
      ((c.toNat + 1 - d - s.cfg.fpgaOverhead) % 2 = 1 → 2 * t.rsp.r0.toNat + d + s.cfg.fpgaOverhead = c.toNat) ∧
      ((c.toNat + 1 - d - s.cfg.fpgaOverhead) % 2 = 0 → 2 * t.rsp.r0.toNat + d + s.cfg.fpgaOverhead = c.toNat + 1)

/-! ## SEL_TIMEOUT -/

/-- 43_selection_timeout.md R79: 36 for false, 4 for true, under every configuration. -/
def Obligations.SelTimeoutReturnsTheTwoConstants : Prop :=
  ∀ s : State,
    exec (.selTimeout 0) s = .next { s with rsp := ⟨false, 36, 0, 0, 0⟩ } ∧
    exec (.selTimeout 1) s = .next { s with rsp := ⟨false, 4, 0, 0, 0⟩ }

/-- 43_selection_timeout.md R80. -/
def Obligations.SelTimeoutRejectsOtherFlags : Prop :=
  ∀ (s : State) (a : Int), a ≠ 0 → a ≠ 1 → exec (.selTimeout a) s = .next { s with rsp := ⟨true, 0, 0, 0, 0⟩ }

/-! ## Encoding -/

/-- 30_encoding.md R51: `decode(encode(r)) = r` for every request, every operand at every value the word can spell. -/
def Obligations.DecodeAfterEncode : Prop :=
  ∀ i : Instr, i.wellFormed = true → decode (encode i) = .ok i

/-- 30_encoding.md R51: `encode(decode(w)) = w` for every well-formed word, and what is decoded is a request of R51. -/
def Obligations.EncodeAfterDecode : Prop :=
  ∀ (w : Word) (i : Instr), decode w = .ok i → encode i = w ∧ i.wellFormed = true

/-- 30_encoding.md R49, R50: decoding fails on exactly the ill-formed words; whatever else such a word holds, the step
answers it with the error. -/
def Obligations.ExactlyIllFormedWordsAreNotDecoded : Prop :=
  (∀ w : Word, (∃ e, decode w = .error e) ↔
    (w.toNat / 2 ^ 29 = 7 ∨ w.toNat / 2 ^ 24 % 32 ≠ 0 ∨ (w.toNat / 2 ^ 29 ≠ 4 ∧ w.toNat / 2 ^ 16 % 256 ≠ 0))) ∧
  (∀ (s : State) (w : Word), s.req = .settled w →
    (w.toNat / 2 ^ 29 = 7 ∨ w.toNat / 2 ^ 24 % 32 ≠ 0 ∨ (w.toNat / 2 ^ 29 ≠ 4 ∧ w.toNat / 2 ^ 16 % 256 ≠ 0)) →
    step s = .next { s with rsp := ⟨true, 0, 0, 0, 0⟩ })

/-- 30_encoding.md R42 to R45: where the bits of a decoded word go, in arithmetic on the word as a number. -/
def Obligations.DecodedOperandsComeFromTheirBits : Prop :=
  ∀ (w : Word) (i : Instr), decode w = .ok i →
    i.opcode.toNat = w.toNat / 2 ^ 29 ∧
    i.b = w.toNat / 2 ^ 16 % 256 ∧
    i.a = if w.toNat % 65536 < 32768 then ((w.toNat % 65536 : Nat) : Int) else ((w.toNat % 65536 : Nat) : Int) - 65536

/-- 30_encoding.md R51: the match and mask columns of spec/opcode_table.json say what the decoder does: a word that decodes
selects exactly its operation's row, and a word that does not selects none. -/
def Obligations.OpcodeTableSelectsTheDecodedRow : Prop :=
  ∀ w : Word, (opcodeTable.filter (fun r => r.selects w)).map OpcodeRow.mnemonic =
    match decode w with
    | .ok i => [i.mnemonic]
    | .error _ => []

/-- 30_encoding.md R55, the worked encodings. -/
def Obligations.WorkedEncodings : Prop :=
  decode 0x00000000#32 = .ok (.asyncTiming 0) ∧ decode 0x00000002#32 = .ok (.asyncTiming 2) ∧
  decode 0x00000005#32 = .ok (.asyncTiming 5) ∧ decode 0x0000FFFF#32 = .ok (.asyncTiming (-1)) ∧
  decode 0x20000019#32 = .ok (.syncDeskew 25) ∧ decode 0x40000019#32 = .ok (.syncHold 25) ∧
  decode 0x40000022#32 = .ok (.syncHold 34) ∧ decode 0x60000032#32 = .ok (.periodToClks 50) ∧
  decode 0x80020019#32 = .ok (.syncAssertWr 25 2) ∧ decode 0x80050032#32 = .ok (.syncAssertWr 50 5) ∧
  decode 0xA0000019#32 = .ok (.syncAssertRd 25) ∧ decode 0xA000FFFF#32 = .ok (.syncAssertRd (-1)) ∧
  decode 0xC0000000#32 = .ok (.selTimeout 0) ∧ decode 0xC0000001#32 = .ok (.selTimeout 1) ∧
  decode 0xE0000000#32 = .error .reservedOperation ∧ decode 0xFFFFFFFF#32 = .error .reservedOperation ∧
  decode 0x21000019#32 = .error .reservedBits ∧ decode 0x20010019#32 = .error .operandBSet

/-! ## Responses -/

/-- 30_encoding.md R46: the packed word has `err` at bit 64 and the four results below it; an error has four zero results
on the wires; and, the other way, a caller who looks at `err` first reads off exactly the response. -/
def Obligations.ResponseOnTheWires : Prop :=
  (∀ o : Wires, o.packed.getLsbD 64 = o.err ∧ o.packed.extractLsb' 48 16 = o.r0 ∧ o.packed.extractLsb' 32 16 = o.r1 ∧
    o.packed.extractLsb' 16 16 = o.r2 ∧ o.packed.extractLsb' 0 16 = o.r3 ∧ Wires.ofPacked o.packed = o) ∧
  (∀ r0 r1 r2 r3 : Count, (Response.ok r0 r1 r2 r3).wires = ⟨false, r0, r1, r2, r3⟩) ∧
  Response.invalidConfiguration.wires = ⟨true, 0, 0, 0, 0⟩ ∧
  (∀ r : Response, r.wires.response = r)

/-- 30_encoding.md R47: every operation but ASYNC_TIMING answers, with at most one count, in `r0`. -/
def Obligations.OtherOperationsReturnOneCount : Prop :=
  ∀ (i : Instr) (s : State), (∀ a, i ≠ .asyncTiming a) →
    ∃ (e : Bool) (v : Count), exec i s = .next { s with rsp := ⟨e, v, 0, 0, 0⟩ }

/-! ## The step -/

/-- 70_reset_and_hazards.md R98, 30_encoding.md R50: a step on a settled word that decodes is its operation, and nothing is
added around it. The second and third clauses are THE MODEL'S (DEDUCED, not said by R98 or R50): presenting a word changes
the request inputs only, so the earlier outputs stand until the next step (log 6), and `withFetchWord` stands for the
caller presenting a word (log 5). -/
def Obligations.StepRunsTheDecodedOperation : Prop :=
  (∀ (s : State) (w : Word) (i : Instr), s.req = .settled w → decode w = .ok i → step s = exec i s) ∧
  (∀ (s : State) (w : Word), s.present w = { s with req := .settled w }) ∧
  (∀ (s : State) (n w : Nat), s.withFetchWord n w = { s with req := .settled (BitVec.ofNat 32 (w % 2 ^ n)) })

/-- THE MODEL'S CHOICE (log 4), made of 93_implementation_defined.md U12 ("any value"): while the inputs are unsettled a
step goes on and the outputs take the next free value, whatever it is. -/
def Obligations.UnsettledRequestGivesFreeOutputs : Prop :=
  ∀ s : State, s.req = .unsettled →
    step s = .next { s with rsp := Wires.ofPacked (Config.unspecifiedRsp s.freeUsed), freeUsed := s.freeUsed + 1 }

/-- 70_reset_and_hazards.md R101, 00_scope.md R12: the block never ends a run: every step has a next state, and so has
every operation, on every operand. The rules speak of a settled word; that a step on unsettled inputs goes on too is THE
MODEL'S CHOICE (DESIGN CHOICE, log 4; U12: a model has no such instant). -/
def Obligations.EveryStepAnswers : Prop :=
  (∀ s : State, ∃ t, step s = .next t) ∧ (∀ (i : Instr) (s : State), ∃ t, exec i s = .next t)

/-- 10_state.md R20, R21, 20_memory.md R33: an operation changes no part of the configuration and no cell of the ROM. That
it leaves the request inputs is THE MODEL'S (DEDUCED, log 6; log 1), and so is the counter that it leaves (log 4). -/
def Obligations.OperationsChangeOnlyTheOutputs : Prop :=
  ∀ (i : Instr) (s t : State), exec i s = .next t →
    t.cfg = s.cfg ∧ t.req = s.req ∧ t.freeUsed = s.freeUsed ∧ (∀ a, t.rom.read a = s.rom.read a) ∧ t = { s with rsp := t.rsp }

/-- 20_memory.md R33, 10_state.md R20, R21: no step changes the configuration or a cell of the ROM. That no step changes the
request inputs is THE MODEL'S (DEDUCED, log 6; log 1): they are the caller's. -/
def Obligations.StepNeverWritesConfigurationOrRom : Prop :=
  ∀ s t : State, step s = .next t → t.cfg = s.cfg ∧ t.req = s.req ∧ ∀ a, t.rom.read a = s.rom.read a

/-- 00_scope.md R12: two requests with equal bits get equal responses: under one configuration the outputs depend on the
presented word alone, not on earlier outputs and not on the model's counter. -/
def Obligations.OutputsDependOnConfigurationAndWordAlone : Prop :=
  ∃ f : Cfg → Word → Wires, ∀ (s : State) (w : Word), s.req = .settled w → step s = .next { s with rsp := f s.cfg w }

/-- 60_exceptions.md R83: under every configuration, a settled word is answered, and with the error exactly when a line of
the table of causes matches it. -/
def Obligations.ErrorExactlyForTheListedCauses : Prop :=
  ∀ (s : State) (w : Word), s.req = .settled w →
    ∃ t, step s = .next t ∧ (t.rsp.err = true ↔ Rejected s.cfg w)

/-- The invariant that every step keeps, from any state that has it (60_exceptions.md R82, R83; 30_encoding.md R46, R47):
the error exactly for a rejected word, no count beside an error, one count but for ASYNC_TIMING; and the ROM stays in
canonical form. -/
def Obligations.StepKeepsOutputsSound : Prop :=
  ∀ s t : State, s.Sound ∧ s.rom.wf → step s = .next t → t.Sound ∧ t.rom.wf

/-- The invariant holds at reset, where no request is presented yet (THE MODEL'S CHOICE, log 3), and the reset
configuration, which is opaque, is well-formed. -/
def Obligations.ResetIsSound : Prop :=
  State.reset.Sound ∧ State.reset.rom.wf ∧ State.reset.cfg.toCfgData.WellFormed

/-- 70_reset_and_hazards.md R98: the outputs hold for as long as the request does: a further step on the same word changes
nothing. -/
def Obligations.OutputsHoldWhileTheRequestDoes : Prop :=
  ∀ (s t : State) (w : Word), s.req = .settled w → step s = .next t → step t = .next t

/-- 70_reset_and_hazards.md R101, R102, 60_exceptions.md R87: a run of any length is answered request by request, each as
if it were the only one; an error in between leaves no trace and the run goes on. -/
def Obligations.RunsAreAnsweredRequestByRequest : Prop :=
  ∃ f : Cfg → Word → Response, ∀ (s : State) (ws : List Word), serveAll s ws = ws.map (f s.cfg)

/-! ## The timing ROM -/

/-- 20_memory.md R28: the 20 cells, and no other. -/
def Obligations.RomContents : Prop :=
  ∀ s : State,
    s.rom.length = 20 ∧
    (List.range 20).map s.rom.read =
      [23, 15, 6, 12,
       s.cfg.asyncRow1.assert, s.cfg.asyncRow1.deskew, s.cfg.asyncRow1.hold, s.cfg.asyncRow1.glitch,
       8, 5, 5, 5,
       s.cfg.asyncRow3.assert, s.cfg.asyncRow3.deskew, s.cfg.asyncRow3.hold, s.cfg.asyncRow3.glitch,
       s.cfg.asyncRow4.assert, s.cfg.asyncRow4.deskew, s.cfg.asyncRow4.hold, s.cfg.asyncRow4.glitch].map some ∧
    ∀ a, 20 ≤ a → s.rom.read a = none

/-- 20_memory.md R29: `MemRead` is defined exactly for `n >= 1` and `addr + n <= 20`, and there gives the `n` cells, lowest
address first. -/
def Obligations.MemReadIsDefinedExactlyInsideTheRom : Prop :=
  ∀ (s : State) (addr n : Nat),
    ((memRead s.rom addr n).isSome = true ↔ 1 ≤ n ∧ addr + n ≤ 20) ∧
    (∀ cells, memRead s.rom addr n = some cells →
      cells.length = n ∧ ∀ k, k < n → cells[k]? = s.rom.read (addr + k))

/-- 20_memory.md R31: rows 0, 1, 2 are ordered in each field, under every configuration; of rows 2, 3, 4 nothing of the
kind may be assumed: some well-formed configuration breaks it in each field. -/
def Obligations.RowsZeroToTwoAreOrdered : Prop :=
  (∀ (s : State) (f : Nat), f < 4 →
    ∃ x y z : Byte, s.rom.read f = some x ∧ s.rom.read (4 + f) = some y ∧ s.rom.read (8 + f) = some z ∧
      z.toNat ≤ y.toNat ∧ y.toNat ≤ x.toNat) ∧
  (∃ c : Cfg, ∀ f : Nat, f < 4 →
    ∃ x y z : Byte, (romOf c).read (8 + f) = some x ∧ (romOf c).read (12 + f) = some y ∧
      (romOf c).read (16 + f) = some z ∧ x.toNat < y.toNat ∧ y.toNat < z.toNat)

/-- 20_memory.md R32: ASYNC_TIMING alone reads the ROM: on two blocks that differ in the configured rows only, every other
operation gives the same outputs. -/
def Obligations.OnlyAsyncTimingReadsTheRom : Prop :=
  ∀ (i : Instr) (s s' : State), (∀ a, i ≠ .asyncTiming a) →
    s.cfg.clkNum = s'.cfg.clkNum → s.cfg.clkDen = s'.cfg.clkDen → s.cfg.fpgaOverhead = s'.cfg.fpgaOverhead →
    s.cfg.periodMax = s'.cfg.periodMax →
    ∃ o : Wires, exec i s = .next { s with rsp := o } ∧ exec i s' = .next { s' with rsp := o }

/-! ## Building the block, and the caller -/

/-- 60_exceptions.md R96, 00_scope.md R8, 93 U15: a configuration is refused exactly if it is not well-formed, and a
well-formed one is built as it is; the form of the refusal is the model's (log 10). That the block just built has no
request presented is THE MODEL'S CHOICE (DESIGN CHOICE, unsafe, log 3). -/
def Obligations.BuildRefusesExactlyIllFormedConfigurations : Prop :=
  ∀ c : CfgData,
    (c.WellFormed → ∃ t, State.build c = .next t ∧ t.cfg.toCfgData = c ∧ t.req = .unsettled) ∧
    (¬ c.WellFormed → State.build c = .refused .illFormedConfiguration)

/-- 30_encoding.md R54: `SYNC_TIMING p` gives the four counts that its four operations give, the write assertion being
asked with the deskew just obtained; and it fails as a whole if any of them is rejected. The deskew always fits
operand B. -/
def Obligations.SyncTimingIsItsFourRequests : Prop :=
  (∀ (s : State) (p : Int) (d h aw ar : Count),
    exec (.syncDeskew p) s = .next { s with rsp := ⟨false, d, 0, 0, 0⟩ } →
    exec (.syncHold p) s = .next { s with rsp := ⟨false, h, 0, 0, 0⟩ } →
    exec (.syncAssertWr p d.toNat) s = .next { s with rsp := ⟨false, aw, 0, 0, 0⟩ } →
    exec (.syncAssertRd p) s = .next { s with rsp := ⟨false, ar, 0, 0, 0⟩ } →
    d.toNat ≤ 255 ∧ syncTiming s p = some { deskew := d, hold := h, assertWr := aw, assertRd := ar }) ∧
  (∀ (s : State) (p : Int) (d : Count), -32768 ≤ p → p ≤ 32767 →
    exec (.syncDeskew p) s = .next { s with rsp := ⟨false, d, 0, 0, 0⟩ } →
    exec (.syncAssertWr p d.toNat) s = .next { s with rsp := ⟨true, 0, 0, 0, 0⟩ } ∨
      exec (.syncAssertRd p) s = .next { s with rsp := ⟨true, 0, 0, 0, 0⟩ } →
    syncTiming s p = none) ∧
  (∀ (s : State) (p : Int), -32768 ≤ p → p ≤ 32767 →
    exec (.syncDeskew p) s = .next { s with rsp := ⟨true, 0, 0, 0, 0⟩ } → syncTiming s p = none)

/-- 30_encoding.md R54, the two other pseudo-instructions: a name of a speed class asks for the row of its index
(20_memory.md R30), and `SYNC_ASSERT_RD_GENERAL p` gives, outside the fastest class, what SYNC_ASSERT_RD gives. -/
def Obligations.NamedClassAndGeneralReadAsk : Prop :=
  (∀ (s : State) (n : SpeedClassName), ∃ c0 c1 c2 c3 : Byte,
    memRead s.rom (4 * classIndex n) 4 = some [c0, c1, c2, c3] ∧
    asyncTimingByName s n =
      .next { s with
        req := .settled (encode (.asyncTiming (classIndex n)))
        rsp := ⟨false, c0.zeroExtend 16, c1.zeroExtend 16, c2.zeroExtend 16, c3.zeroExtend 16⟩ }) ∧
  (∀ (s : State) (p : Int), 25 < p → p ≤ 32767 →
    ∃ o : Wires,
      syncAssertRdGeneral s p = .next { s with req := .settled (encode (.syncAssertWr p 0)), rsp := o } ∧
      exec (.syncAssertRd p) s = .next { s with rsp := o })

/-- 70_reset_and_hazards.md R97: a reset changes no response: a block just reset and a block in any state, of one
configuration, answer every word with the same outputs. -/
def Obligations.ResetChangesNoResponse : Prop :=
  ∀ (s : State) (w : Word), ∃ o : Wires,
    serve s w = .next { s with req := .settled w, rsp := o } ∧
    serve { State.reset with cfg := s.cfg } w =
      .next { State.reset with cfg := s.cfg, req := .settled w, rsp := o }
end

