-- ==== Sys2Proof/Laws/Config.lean ====
section
/-! SUPPORT. The clamp that builds the reset configuration loses no well-formed configuration (log 2). -/

namespace Sys2Proof.Laws

theorem clampNat_of_mem {lo hi x : Nat} (h1 : lo ≤ x) (h2 : x ≤ hi) : clampNat lo hi x = x := by
  unfold clampNat; omega

theorem clampByte_of_mem {lo hi : Nat} {x : Byte} (h1 : lo ≤ x.toNat) (h2 : x.toNat ≤ hi) : clampByte lo hi x = x := by
  simp [clampByte, clampNat_of_mem h1 h2]

theorem le_maxClkNum_of_clks_le {num den pm : Nat} (hd : 1 ≤ den) (hp : 1 ≤ pm)
    (h : (pm * num + den / 2) / den ≤ 65535) : num ≤ maxClkNum den pm := by
  have h1 : pm * num + den / 2 < 65536 * den := (Nat.div_lt_iff_lt_mul (by omega)).1 (by omega)
  unfold maxClkNum
  rw [Nat.le_div_iff_mul_le (by omega), Nat.mul_comm]
  omega

/-- Every well-formed configuration (00_scope.md R8) is left as it is. -/
theorem CfgData_clamp_of_wellFormed {c : CfgData} (h : c.WellFormed) : c.clamp = c := by
  obtain ⟨hn, hd, hp, hp', ha, hk, hh, hg, hf⟩ := h
  obtain ⟨num, den, ov, pm, ⟨a, k, ho, g⟩, r3, r4⟩ := c
  have hden : den - 1 + 1 = den := Nat.sub_add_cancel hd
  simp only [CfgData.clamp, hden, clampNat_of_mem hp hp', clampByte_of_mem ha.1 ha.2, clampByte_of_mem hk.1 hk.2,
    clampByte_of_mem hh.1 hh.2, clampByte_of_mem hg.1 hg.2,
    clampNat_of_mem hn (le_maxClkNum_of_clks_le hd (by omega) hf)]

end Sys2Proof.Laws
end

