-- ==== Sys2Proof/Laws/Decode.lean ====
section
/-! SUPPORT. The fields of a packed word, and the signed operand. -/

namespace Sys2Proof.Laws

/-- The packed word as a number: `(op << 29) | (b << 16) | a` (30_encoding.md R51). -/
theorem toNat_packFields (op : BitVec 3) (b : BitVec 8) (a : BitVec 16) :
    (packFields op b a).toNat = op.toNat * 2 ^ 29 + b.toNat * 2 ^ 16 + a.toNat := by
  have ho := op.isLt
  have hb := b.isLt
  have ha := a.isLt
  have h : (packFields op b a).toNat = (op ++ 0#5 ++ b ++ a).toNat := rfl
  simp only [h, BitVec.toNat_append, Nat.shiftLeft_eq, BitVec.toNat_ofNat, Nat.zero_mod, Nat.or_zero]
  rw [← Nat.shiftLeft_eq _ 8, ← Nat.shiftLeft_add_eq_or_of_lt (by omega), ← Nat.shiftLeft_eq _ 16,
    ← Nat.shiftLeft_add_eq_or_of_lt (by omega)]
  simp only [Nat.shiftLeft_eq]
  omega

/-! The fields of a word as numbers (30_encoding.md R42). -/

theorem toNat_opField (w : Word) : (opField w).toNat = w.toNat / 2 ^ 29 := by
  have := w.isLt
  rw [opField, BitVec.extractLsb'_toNat, Nat.shiftRight_eq_div_pow]
  omega

theorem toNat_rsvField (w : Word) : (rsvField w).toNat = w.toNat / 2 ^ 24 % 32 := by
  rw [rsvField, BitVec.extractLsb'_toNat, Nat.shiftRight_eq_div_pow]

theorem toNat_bField (w : Word) : (bField w).toNat = w.toNat / 2 ^ 16 % 256 := by
  rw [bField, BitVec.extractLsb'_toNat, Nat.shiftRight_eq_div_pow]

theorem toNat_aField (w : Word) : (aField w).toNat = w.toNat % 65536 := by
  rw [aField, BitVec.extractLsb'_toNat, Nat.shiftRight_eq_div_pow, Nat.pow_zero, Nat.div_one]

@[simp] theorem opField_packFields (op : BitVec 3) (b : BitVec 8) (a : BitVec 16) : opField (packFields op b a) = op := by
  apply BitVec.eq_of_toNat_eq
  rw [toNat_opField, toNat_packFields]
  omega

@[simp] theorem rsvField_packFields (op : BitVec 3) (b : BitVec 8) (a : BitVec 16) : rsvField (packFields op b a) = 0 := by
  apply BitVec.eq_of_toNat_eq
  rw [toNat_rsvField, toNat_packFields]
  simp only [BitVec.ofNat_eq_ofNat, BitVec.toNat_ofNat]
  omega

@[simp] theorem bField_packFields (op : BitVec 3) (b : BitVec 8) (a : BitVec 16) : bField (packFields op b a) = b := by
  apply BitVec.eq_of_toNat_eq
  rw [toNat_bField, toNat_packFields]
  omega

@[simp] theorem aField_packFields (op : BitVec 3) (b : BitVec 8) (a : BitVec 16) : aField (packFields op b a) = a := by
  apply BitVec.eq_of_toNat_eq
  rw [toNat_aField, toNat_packFields]
  omega

/-- `signed16` is the two's complement reading of the field (00_scope.md R10). -/
theorem signed16_eq_toInt (v : BitVec 16) : signed16 v = v.toInt := by
  have := v.isLt
  rw [signed16, BitVec.toInt_eq_toNat_cond]
  split <;> split <;> omega

theorem signed16_ofInt {a : Int} (h : fitsOperandA a = true) : signed16 (BitVec.ofInt 16 a) = a := by
  simp only [fitsOperandA, Bool.and_eq_true, decide_eq_true_eq] at h
  rw [signed16_eq_toInt, BitVec.toInt_ofInt]
  exact Int.bmod_eq_of_le (by omega) (by omega)

theorem signed16_range (v : BitVec 16) : fitsOperandA (signed16 v) = true := by
  have := v.isLt
  unfold signed16 fitsOperandA
  split <;> simp <;> omega

end Sys2Proof.Laws
end

