-- ==== Sys2Proof/Laws/State.lean ====
section
/-! SUPPORT. One lemma per field per update of `State`, and the fields of the output ports. -/

namespace Sys2Proof.Laws
open Sys2Proof.Machine

@[simp] theorem respond_cfg (s : State) (r : Response) : (s.respond r).cfg = s.cfg := rfl
@[simp] theorem respond_req (s : State) (r : Response) : (s.respond r).req = s.req := rfl
@[simp] theorem respond_rsp (s : State) (r : Response) : (s.respond r).rsp = r.wires := rfl
@[simp] theorem respond_freeUsed (s : State) (r : Response) : (s.respond r).freeUsed = s.freeUsed := rfl
@[simp] theorem respond_rom (s : State) (r : Response) : (s.respond r).rom = s.rom := rfl
@[simp] theorem respond_presented (s : State) (r : Response) : (s.respond r).presented = s.presented := rfl
@[simp] theorem respond_respond (s : State) (r q : Response) : (s.respond r).respond q = s.respond q := rfl

@[simp] theorem present_cfg (s : State) (w : Word) : (s.present w).cfg = s.cfg := rfl
@[simp] theorem present_req (s : State) (w : Word) : (s.present w).req = .settled w := rfl
@[simp] theorem present_rsp (s : State) (w : Word) : (s.present w).rsp = s.rsp := rfl
@[simp] theorem present_freeUsed (s : State) (w : Word) : (s.present w).freeUsed = s.freeUsed := rfl
@[simp] theorem present_rom (s : State) (w : Word) : (s.present w).rom = s.rom := rfl
@[simp] theorem present_presented (s : State) (w : Word) : (s.present w).presented = some w := rfl
@[simp] theorem present_present (s : State) (w v : Word) : (s.present w).present v = s.present v := rfl

@[simp] theorem release_cfg (s : State) : s.release.cfg = s.cfg := rfl
@[simp] theorem release_req (s : State) : s.release.req = .unsettled := rfl
/-- The model's choice, not R98's: before the next step the earlier outputs are still shown (log 16). -/
@[simp] theorem release_rsp (s : State) : s.release.rsp = s.rsp := rfl
@[simp] theorem release_freeUsed (s : State) : s.release.freeUsed = s.freeUsed := rfl
@[simp] theorem release_presented (s : State) : s.release.presented = none := rfl

@[simp] theorem withFetchWord_eq (s : State) (nbits w : Nat) : s.withFetchWord nbits w = s.present (tableWord nbits w) := rfl

@[simp] theorem reset_cfg : State.reset.cfg = Config.build := rfl
@[simp] theorem reset_req : State.reset.req = .unsettled := rfl

@[simp] theorem wires_ok_err (a b c d : Count) : (Response.ok a b c d).wires.err = false := rfl
@[simp] theorem wires_ok_r0 (a b c d : Count) : (Response.ok a b c d).wires.r0 = a := rfl
@[simp] theorem wires_ok_r1 (a b c d : Count) : (Response.ok a b c d).wires.r1 = b := rfl
@[simp] theorem wires_ok_r2 (a b c d : Count) : (Response.ok a b c d).wires.r2 = c := rfl
@[simp] theorem wires_ok_r3 (a b c d : Count) : (Response.ok a b c d).wires.r3 = d := rfl
@[simp] theorem wires_error : Response.invalidConfiguration.wires = { err := true, r0 := 0, r1 := 0, r2 := 0, r3 := 0 } := rfl

theorem presented_eq_some_iff {s : State} {w : Word} : s.presented = some w ↔ s.req = .settled w := by
  unfold State.presented; cases s.req <;> simp

theorem presented_eq_none_iff {s : State} : s.presented = none ↔ s.req = .unsettled := by
  unfold State.presented; cases s.req <;> simp

end Sys2Proof.Laws
end

