-- ==== Sys2Proof/Laws/Ops.lean ====
section
/-! SUPPORT. For each shared operation, once, everything it can do; the proofs cite these instead of unfolding it. -/

namespace Sys2Proof.Laws
open Sys2Proof.Machine

/-! ## How an operation ends -/

theorem returnFour_eq (a b c d : Count) (s : State) : returnFour a b c d s = .next (s.respond (.ok a b c d)) := rfl

theorem returnOne_eq (v : Count) (s : State) : returnOne v s = .next (s.respond (.ok v 0 0 0)) := rfl

theorem raiseInvalidConfiguration_eq (s : State) :
    raiseInvalidConfiguration s = .next (s.respond .invalidConfiguration) := rfl

theorem returnAssertion_of_neg {n : Int} (h : n < 0) (s : State) :
    returnAssertion n s = .next (s.respond .invalidConfiguration) := by
  simp [returnAssertion, h, raiseInvalidConfiguration_eq]

theorem returnAssertion_of_nonneg {n : Int} (h : 0 ≤ n) (s : State) :
    returnAssertion n s = .next (s.respond (.ok (BitVec.ofNat 16 (n.toNat / 2)) 0 0 0)) := by
  simp [returnAssertion, Int.not_lt.2 h, returnOne_eq]

theorem answerIllFormed_eq (s : State) : answerIllFormed s = .next (s.respond .invalidConfiguration) := rfl

/-! ## The operand checks -/

theorem speedClass_of_mem {a : Int} (h0 : 0 ≤ a) (h4 : a ≤ 4) : speedClass a = some a.toNat := by
  unfold speedClass asyncRows; rw [if_pos]; omega

theorem speedClass_of_not_mem {a : Int} (h : a < 0 ∨ 4 < a) : speedClass a = none := by
  unfold speedClass asyncRows; rw [if_neg]; omega

theorem checkPeriod_of_mem {c : Cfg} {p : Int} (h0 : 0 ≤ p) (h1 : p ≤ c.periodMax) : checkPeriod c p = some p.toNat := by
  unfold checkPeriod; rw [if_pos]; omega

theorem checkPeriod_of_not_mem {c : Cfg} {p : Int} (h : p < 0 ∨ (c.periodMax : Int) < p) : checkPeriod c p = none := by
  unfold checkPeriod; rw [if_neg]; omega

theorem fastModeFlag_of_not_flag {a : Int} (h0 : a ≠ 0) (h1 : a ≠ 1) : fastModeFlag a = none := by
  simp [fastModeFlag, h0, h1]

/-! ## The calculator -/

theorem clks_mono (c : Cfg) {p q : Nat} (h : p ≤ q) : clks c p ≤ clks c q :=
  Nat.div_le_div_right (Nat.add_le_add_right (Nat.mul_le_mul_right _ h) _)

/-- Every accepted period's count fits a result field (00_scope.md R8 (f); 42_sync_calc.md R70 (a)). -/
theorem clks_le_65535 (c : Cfg) {p : Nat} (h : p ≤ c.periodMax) : clks c p ≤ 65535 :=
  (clks_mono c h).trans c.wf.2.2.2.2.2.2.2.2

/-- A non-negative budget's half fits a result field. -/
theorem assertBudget_half_lt (c : Cfg) {p : Nat} (d : Nat) (h : p ≤ c.periodMax) :
    (assertBudget c p d).toNat / 2 < 65536 := by
  have := clks_le_65535 c h
  unfold assertBudget; omega

/-! ## The timing ROM -/

/-- The ROM is in canonical form (no operation writes it: 20_memory.md R33). -/
theorem romOf_wf (c : Cfg) : (romOf c).wf := by
  simp [Memory.wf, romOf, rowCells]

theorem rom_wf (s : State) : s.rom.wf := romOf_wf s.cfg

theorem reset_rom_wf : State.reset.rom.wf := rom_wf _

/-- The row of an index (20_memory.md R28). -/
def rowAt (c : Cfg) : Nat → AsyncRow
  | 0 => asyncRow0
  | 1 => c.asyncRow1
  | 2 => asyncRow2
  | 3 => c.asyncRow3
  | _ => c.asyncRow4

/-- Reading a whole row of the ROM (20_memory.md R36, R37). -/
theorem memRead_row (c : Cfg) {i : Nat} (h : i < 5) :
    memRead (romOf c) (4 * i) 4 =
      some [(rowAt c i).assert, (rowAt c i).deskew, (rowAt c i).hold, (rowAt c i).glitch] := by
  rcases i with _ | _ | _ | _ | _ | i
  · rfl
  · rfl
  · rfl
  · rfl
  · rfl
  · omega

/-- No cell has an address above 19 (20_memory.md R34). -/
theorem romOf_read_none (c : Cfg) {a : Nat} (h : 20 ≤ a) : (romOf c).read a = none := by
  simp only [Memory.read, romOf, rowCells, List.cons_append, List.nil_append, List.lookup_eq_none_iff]
  intro x hx
  simp only [List.mem_cons, List.not_mem_nil, or_false] at hx
  rcases hx with h | h | h | h | h | h | h | h | h | h | h | h | h | h | h | h | h | h | h | h <;> subst h <;> simp <;> omega

/-! ## The ports -/

@[simp] theorem response_wires (r : Response) : r.wires.response = r := by cases r <;> rfl

/-! ## The step -/

theorem step_of_decoded {s : State} {w : Word} {i : Instr} (hr : s.req = .settled w) (hd : decode w = .ok i) :
    step s = exec i s := by
  simp [step, presented_eq_some_iff.2 hr, hd]

theorem step_of_illFormed {s : State} {w : Word} {e : DecodeError} (hr : s.req = .settled w) (hd : decode w = .error e) :
    step s = .next (s.respond .invalidConfiguration) := by
  simp [step, presented_eq_some_iff.2 hr, hd, answerIllFormed_eq]

theorem step_of_unsettled {s : State} (hr : s.req = .unsettled) : step s = answerUnsettled s := by
  simp [step, presented_eq_none_iff.2 hr]

end Sys2Proof.Laws
end

