-- ==== Sys2Proof/Laws/PerInstr.lean ====
section
/-! SUPPORT. Facts about each operation as a term: the fields of its encoding (30_encoding.md R42, R51). -/

namespace Sys2Proof.Laws.EncodeFields

/-- The four fields of the encoded word (30_encoding.md R42); B is 0 where the operation does not use it (R45). -/
def Statement (i : Instr) : Prop :=
  opField (encode i) = i.opcode ∧ rsvField (encode i) = 0 ∧ bField (encode i) = BitVec.ofNat 8 i.b ∧
  aField (encode i) = BitVec.ofInt 16 i.a ∧ (i.opcode ≠ 4 → bField (encode i) = 0)

theorem asyncTiming (a : Int) : Statement (.asyncTiming a) := by simp [Statement, encode, Instr.b]
theorem syncDeskew (p : Int) : Statement (.syncDeskew p) := by simp [Statement, encode, Instr.b]
theorem syncHold (p : Int) : Statement (.syncHold p) := by simp [Statement, encode, Instr.b]
theorem periodToClks (p : Int) : Statement (.periodToClks p) := by simp [Statement, encode, Instr.b]
theorem syncAssertWr (p : Int) (d : Nat) : Statement (.syncAssertWr p d) := by simp [Statement, encode, Instr.opcode]
theorem syncAssertRd (p : Int) : Statement (.syncAssertRd p) := by simp [Statement, encode, Instr.b]
theorem selTimeout (a : Int) : Statement (.selTimeout a) := by simp [Statement, encode, Instr.b]

end Sys2Proof.Laws.EncodeFields
end

