-- ==== Sys2Proof/Tests/Slice0.lean ====
section
/-! SUPPORT. Tests. Expected results come from spec/95_test_vectors.md and the rules' own examples, by hand from the rules
where a comment says so. The configurations are illustrations of the spec,
not the hardware's. -/

namespace Sys2Proof.Tests
open Sys2Proof.Machine

/-! ## Configurations of 95_test_vectors.md 2.1 -/

def illus : Cfg :=
  { clkNum := 32, clkDen := 100, fpgaOverhead := 2, periodMax := 255, asyncRow1 := ⟨15, 10, 6, 8⟩,
    asyncRow3 := ⟨9, 6, 5, 5⟩, asyncRow4 := ⟨6, 4, 4, 4⟩, wf := by decide }

def tie : Cfg :=
  { clkNum := 1, clkDen := 2, fpgaOverhead := 0, periodMax := 255, asyncRow1 := ⟨15, 10, 6, 8⟩,
    asyncRow3 := ⟨9, 6, 5, 5⟩, asyncRow4 := ⟨6, 4, 4, 4⟩, wf := by decide }

/-- The configuration at the end of 95_test_vectors.md 2.7, in which the general read formula fails. -/
def slow : Cfg :=
  { clkNum := 1, clkDen := 10, fpgaOverhead := 6, periodMax := 255, asyncRow1 := ⟨15, 10, 6, 8⟩,
    asyncRow3 := ⟨9, 6, 5, 5⟩, asyncRow4 := ⟨6, 4, 4, 4⟩, wf := by decide }

/-- A block with a configuration, its outputs at some earlier response. -/
def block (c : Cfg) : State := { cfg := c, req := .unsettled, rsp := ⟨true, 1, 2, 3, 4⟩, freeUsed := 1 }

/-- The response of one step on a word. -/
def answer (c : Cfg) (w : Word) : Option Response :=
  match step ((block c).present w) with
  | .next t => some t.rsp.response
  | _ => none

/-- The response of the first step after reset, on the bits `w`. -/
def answerAfterReset (w : Nat) : Option Response :=
  match step (State.reset.withFetchWord 32 w) with
  | .next t => some t.rsp.response
  | _ => none

/-! ## Well-formedness: each check refuses an ill-formed term -/

theorem test_operandA_too_large : (Instr.syncDeskew 32768).wellFormed = false := by decide
theorem test_operandA_too_small : (Instr.asyncTiming (-32769)).wellFormed = false := by decide
theorem test_operandB_too_large : (Instr.syncAssertWr 25 256).wellFormed = false := by decide
theorem test_operands_at_the_bounds : (Instr.syncAssertWr (-32768) 255).wellFormed = true := by decide

/-! ## Decoding: words written out field by field, op, rsv, B, A (30_encoding.md R42, R55; 95 2.2) -/

theorem test_decode_async_timing : decode 0b000_00000_00000000_0000000000000010#32 = .ok (.asyncTiming 2) := by decide
theorem test_decode_negative_index : decode 0b000_00000_00000000_1111111111111111#32 = .ok (.asyncTiming (-1)) := by decide
theorem test_decode_sync_deskew : decode 0b001_00000_00000000_0000000000011001#32 = .ok (.syncDeskew 25) := by decide
theorem test_decode_sync_hold : decode 0b010_00000_00000000_0000000000100010#32 = .ok (.syncHold 34) := by decide
theorem test_decode_period_to_clks : decode 0b011_00000_00000000_0000000000110010#32 = .ok (.periodToClks 50) := by decide
theorem test_decode_sync_assert_wr : decode 0b100_00000_00000101_0000000000110010#32 = .ok (.syncAssertWr 50 5) := by decide
theorem test_decode_sync_assert_rd : decode 0b101_00000_00000000_0000000000011001#32 = .ok (.syncAssertRd 25) := by decide
theorem test_decode_sel_timeout : decode 0b110_00000_00000000_0000000000000001#32 = .ok (.selTimeout 1) := by decide
theorem test_decode_reserved_operation : decode 0xE0000000#32 = .error .reservedOperation := by decide
theorem test_decode_reserved_bits : decode 0x9F000000#32 = .error .reservedBits := by decide
theorem test_decode_operandB_set : decode 0xC0010000#32 = .error .operandBSet := by decide
theorem test_decodeTableWord : decodeTableWord 32 0x80020019 = some (.syncAssertWr 25 2) := by decide
theorem test_encode_wr : encode (.syncAssertWr 25 2) = 0x80020019#32 := by decide
theorem test_encode_negative : encode (.syncAssertRd (-1)) = 0xA000FFFF#32 := by decide

/-! ## One step each (95 2.3 to 2.8) -/

theorem test_async_row3 : answer illus 0x00000003#32 = some (.ok 9 6 5 5) := by decide
theorem test_async_index8_not_modulo : answer illus 0x00000008#32 = some .invalidConfiguration := by decide
theorem test_deskew_below_threshold : answer illus 0x20000022#32 = some (.ok 2 0 0 0) := by decide
theorem test_deskew_above_periodMax : answer illus 0x20000100#32 = some .invalidConfiguration := by decide
theorem test_hold_25 : answer illus 0x40000019#32 = some (.ok 2 0 0 0) := by decide
theorem test_hold_26 : answer illus 0x4000001A#32 = some (.ok 3 0 0 0) := by decide
theorem test_clks_rounds : answer illus 0x60000021#32 = some (.ok 11 0 0 0) := by decide
theorem test_clks_tie_up : answer tie 0x60000003#32 = some (.ok 2 0 0 0) := by decide
theorem test_wr_odd_budget : answer illus 0x80020019#32 = some (.ok 2 0 0 0) := by decide
theorem test_wr_first_rejected_deskew : answer illus 0x80080019#32 = some .invalidConfiguration := by decide
theorem test_rd_26 : answer illus 0xA000001A#32 = some (.ok 3 0 0 0) := by decide
theorem test_rd_26_negative_budget : answer slow 0xA000001A#32 = some .invalidConfiguration := by decide
theorem test_sel_true : answer illus 0xC0000001#32 = some (.ok 4 0 0 0) := by decide
theorem test_sel_2 : answer illus 0xC0000002#32 = some .invalidConfiguration := by decide
theorem test_ill_formed_word : answer illus 0x21000019#32 = some .invalidConfiguration := by decide

/-! ## From reset, whatever the OPEN parameters are (95 S1, S3, S4, S6, S7) -/

theorem test_reset_answers :
    answerAfterReset 0x00000000 = some (.ok 23 15 6 12) ∧ answerAfterReset 0x20000023 = some (.ok 5 0 0 0) ∧
    answerAfterReset 0x40000050 = some (.ok 5 0 0 0) ∧ answerAfterReset 0xA0000019 = some (.ok 4 0 0 0) ∧
    answerAfterReset 0xC0000000 = some (.ok 36 0 0 0) := by decide

/-! ## Packed responses (95 2.2), the ROM, the build, the caller -/

theorem test_packed_row0 : (Response.ok 23 15 6 12).wires.packed = 0x00017000F0006000C#65 := by decide
theorem test_packed_error : Response.invalidConfiguration.wires.packed = 0x10000000000000000#65 := by decide
theorem test_memRead_row2 : memRead (romOf illus) 8 4 = some [8, 5, 5, 5] := by decide
theorem test_memRead_past_the_end : memRead (romOf illus) 17 4 = none := by decide
theorem test_build_refuses_small_periodMax :
    State.build { illus.toCfgData with periodMax := 79 } = .refused .illFormedConfiguration := rfl
/-- 95 P2. -/
theorem test_sync_timing_25 : syncTiming (block illus) 25 = some ⟨2, 2, 2, 4⟩ := by decide
/-- By hand from the rules: `Clks(1) = 0`, so the write assertion is rejected and with it the whole (30_encoding.md R54). -/
theorem test_sync_timing_1 : syncTiming (block illus) 1 = none := by decide

theorem test_render_request : renderRequest (.syncAssertWr 25 2) = "SYNC_ASSERT_WR 25, 2" := by decide
theorem test_render_negative : renderRequest (.syncDeskew (-1)) = "SYNC_DESKEW -1" := by decide
theorem test_render_response : renderResponse (.asyncTiming 0) (.ok 23 15 6 12) = "-> (23, 15, 6, 12)" := by decide

/-! ## Witnesses: for each statement with hypotheses, a state and operands that meet them, at the boundaries -/

/-- ILLUS accepts the periods 0..255. -/
theorem witness_periodMax : (illus.periodMax : Int) = 255 := rfl

/-- AsyncTimingReturnsItsRowExactly: the first and the last row. -/
theorem witness_AsyncTimingReturnsItsRowExactly :
    ((0 : Int) ≤ 0 ∧ (0 : Int) ≤ 4) ∧ ((0 : Int) ≤ 4 ∧ (4 : Int) ≤ 4) ∧ (block illus).rom = (block tie).rom := by decide

/-- AsyncTimingRejectsOtherIndices: both sides of the range. -/
theorem witness_AsyncTimingRejectsOtherIndices : ((-1 : Int) < 0 ∨ 4 < (-1 : Int)) ∧ ((5 : Int) < 0 ∨ 4 < (5 : Int)) := by
  decide

/-- SyncDeskewSelectsByThreshold: 34 and 0 for the first clause, 35 and 255 for the second, -1 and 256 for the third. -/
theorem witness_SyncDeskewSelectsByThreshold :
    ((0 : Int) ≤ 34 ∧ (34 : Int) ≤ (block illus).cfg.periodMax ∧ (34 : Int) < 35) ∧
    ((0 : Int) ≤ 0 ∧ (0 : Int) ≤ (block illus).cfg.periodMax ∧ (0 : Int) < 35) ∧
    ((0 : Int) ≤ 35 ∧ (35 : Int) ≤ (block illus).cfg.periodMax ∧ (35 : Int) ≤ 35) ∧
    ((0 : Int) ≤ 255 ∧ (255 : Int) ≤ (block illus).cfg.periodMax ∧ (35 : Int) ≤ 255) ∧
    ((-1 : Int) < 0) ∧ (((block illus).cfg.periodMax : Int) < 256) := by decide

/-- SyncHoldSelectsThreeWays: 25; 24, 26 and 34; 35 and 255; -1 and 256. -/
theorem witness_SyncHoldSelectsThreeWays :
    ((25 : Int) = 25) ∧
    ((0 : Int) ≤ 24 ∧ (24 : Int) ≤ (block illus).cfg.periodMax ∧ (24 : Int) < 35 ∧ (24 : Int) ≠ 25) ∧
    ((0 : Int) ≤ 26 ∧ (26 : Int) ≤ (block illus).cfg.periodMax ∧ (26 : Int) < 35 ∧ (26 : Int) ≠ 25) ∧
    ((0 : Int) ≤ 34 ∧ (34 : Int) ≤ (block illus).cfg.periodMax ∧ (34 : Int) < 35 ∧ (34 : Int) ≠ 25) ∧
    ((0 : Int) ≤ 35 ∧ (35 : Int) ≤ (block illus).cfg.periodMax ∧ (35 : Int) ≤ 35) ∧
    ((-1 : Int) < 0) ∧ (((block illus).cfg.periodMax : Int) < 256) := by decide

/-- PeriodsBelowTwentyFiveFollowThePolicies: both ends. -/
theorem witness_PeriodsBelowTwentyFiveFollowThePolicies :
    ((0 : Int) ≤ 0 ∧ (0 : Int) ≤ 24) ∧ ((0 : Int) ≤ 24 ∧ (24 : Int) ≤ 24) := by decide

/-- DeskewAndHoldAgreeAtTheThreshold: both ends. -/
theorem witness_DeskewAndHoldAgreeAtTheThreshold :
    ((0 : Int) ≤ 0 ∧ (0 : Int) ≤ (block illus).cfg.periodMax) ∧
    ((0 : Int) ≤ 255 ∧ (255 : Int) ≤ (block illus).cfg.periodMax) := by decide

/-- PeriodCheckRejectsForAllFive: each of the five forms, at -1. -/
theorem witness_PeriodCheckRejectsForAllFive :
    ((-1 : Int) < 0 ∨ ((block illus).cfg.periodMax : Int) < -1) ∧
    ∀ i ∈ [Instr.syncDeskew (-1), .syncHold (-1), .periodToClks (-1), .syncAssertWr (-1) 255, .syncAssertRd (-1)],
      i = .syncDeskew (-1) ∨ i = .syncHold (-1) ∨ i = .periodToClks (-1) ∨ i = .syncAssertWr (-1) 255 ∨
        i = .syncAssertRd (-1) := by decide

/-- PeriodToClksReturnsTheConversion: 0 and 255; -1 and 256. -/
theorem witness_PeriodToClksReturnsTheConversion :
    ((0 : Int) ≤ 0 ∧ (0 : Int) ≤ (block illus).cfg.periodMax) ∧
    ((0 : Int) ≤ 255 ∧ (255 : Int) ≤ (block illus).cfg.periodMax) ∧
    ((-1 : Int) < 0) ∧ (((block illus).cfg.periodMax : Int) < 256) := by decide

/-- ConversionLaws: a negative period; 0 and 255; under TIE, 3 is a tie (`k = 1`); 25 and 26 in order. -/
theorem witness_ConversionLaws :
    ((-1 : Int) < 0) ∧ (0 ≤ (block illus).cfg.periodMax) ∧ (255 ≤ (block illus).cfg.periodMax) ∧
    (3 ≤ (block tie).cfg.periodMax ∧ 2 * (3 * (block tie).cfg.clkNum) = (2 * 1 + 1) * (block tie).cfg.clkDen) ∧
    (25 ≤ 26 ∧ 26 ≤ (block illus).cfg.periodMax) := by decide

/-- SyncAssertWrSplitsTheBudget, ILLUS at 25: deskew 7 gives `n = 0`, deskew 8 gives `n = -1`; periods -1 and 256. -/
theorem witness_SyncAssertWrSplitsTheBudget :
    ((0 : Int) ≤ 25 ∧ (25 : Int) ≤ (block illus).cfg.periodMax) ∧
    ((0 : Int) = ((((25 : Int).toNat * (block illus).cfg.clkNum + (block illus).cfg.clkDen / 2) / (block illus).cfg.clkDen : Nat) : Int)
      - (7 : Nat) - (block illus).cfg.fpgaOverhead + 1) ∧
    ((-1 : Int) = ((((25 : Int).toNat * (block illus).cfg.clkNum + (block illus).cfg.clkDen / 2) / (block illus).cfg.clkDen : Nat) : Int)
      - (8 : Nat) - (block illus).cfg.fpgaOverhead + 1) ∧
    ((-1 : Int) < 0) ∧ (((block illus).cfg.periodMax : Int) < 256) := by decide

/-- SyncAssertRdSpecialCasesTheFastestClass: 0 and 25; 26 under ILLUS (`n = 7`) and under `slow` (`n = -2`); -1, 256. -/
theorem witness_SyncAssertRdSpecialCasesTheFastestClass :
    ((0 : Int) ≤ 0 ∧ (0 : Int) ≤ 25) ∧ ((0 : Int) ≤ 25 ∧ (25 : Int) ≤ 25) ∧
    ((25 : Int) < 26 ∧ (26 : Int) ≤ (block illus).cfg.periodMax ∧ (26 : Int) ≤ (block slow).cfg.periodMax) ∧
    ((7 : Int) = ((((26 : Int).toNat * (block illus).cfg.clkNum + (block illus).cfg.clkDen / 2) / (block illus).cfg.clkDen : Nat) : Int)
      - (block illus).cfg.fpgaOverhead + 1) ∧
    ((-2 : Int) = ((((26 : Int).toNat * (block slow).cfg.clkNum + (block slow).cfg.clkDen / 2) / (block slow).cfg.clkDen : Nat) : Int)
      - (block slow).cfg.fpgaOverhead + 1) ∧
    ((-1 : Int) < 0) ∧ (((block illus).cfg.periodMax : Int) < 256) := by decide

/-- ReadAssertionIsWriteWithZeroDeskew: the first period above the class, and one above PERIOD_MAX. -/
theorem witness_ReadAssertionIsWriteWithZeroDeskew : (25 : Int) < 26 ∧ (25 : Int) < 256 := by decide

/-- BudgetIsMetWithinOneCycle: ILLUS at 25 with deskew 2, where `Clks = 8` and `n = 5` is odd. -/
theorem witness_BudgetIsMetWithinOneCycle_odd :
    (0 : Int) ≤ 25 ∧ (25 : Int) ≤ (block illus).cfg.periodMax ∧
    exec (.periodToClks 25) (block illus) = .next { block illus with rsp := ⟨false, 8, 0, 0, 0⟩ } ∧
    2 + (block illus).cfg.fpgaOverhead ≤ (8 : Count).toNat + 1 ∧
    ((8 : Count).toNat + 1 - 2 - (block illus).cfg.fpgaOverhead) % 2 = 1 ∧
    exec (.syncAssertWr 25 2) (block illus) = .next { block illus with rsp := ⟨false, 2, 0, 0, 0⟩ } :=
  ⟨by decide, by decide, rfl, by decide, by decide, rfl⟩

/-- BudgetIsMetWithinOneCycle: ILLUS at 25 with deskew 7, where `n = 0` is even and the least that is accepted. -/
theorem witness_BudgetIsMetWithinOneCycle_even :
    7 + (block illus).cfg.fpgaOverhead ≤ (8 : Count).toNat + 1 ∧
    ((8 : Count).toNat + 1 - 7 - (block illus).cfg.fpgaOverhead) % 2 = 0 ∧
    exec (.syncAssertWr 25 7) (block illus) = .next { block illus with rsp := ⟨false, 0, 0, 0, 0⟩ } :=
  ⟨by decide, by decide, rfl⟩

/-- SelTimeoutRejectsOtherFlags: the two neighbours of the range. -/
theorem witness_SelTimeoutRejectsOtherFlags : ((2 : Int) ≠ 0 ∧ (2 : Int) ≠ 1) ∧ ((-1 : Int) ≠ 0 ∧ (-1 : Int) ≠ 1) := by
  decide

/-- DecodeAfterEncode: operands at both ends. -/
theorem witness_DecodeAfterEncode :
    (Instr.syncAssertWr 32767 255).wellFormed = true ∧ (Instr.selTimeout (-32768)).wellFormed = true := by decide

/-- EncodeAfterDecode and DecodedOperandsComeFromTheirBits. -/
theorem witness_EncodeAfterDecode : decode 0x80FF8000#32 = .ok (.syncAssertWr (-32768) 255) := by decide

/-- ExactlyIllFormedWordsAreNotDecoded, second part: one word for each of the three cases. -/
theorem witness_ExactlyIllFormedWordsAreNotDecoded :
    ((block illus).present 0xE0000000#32).req = .settled 0xE0000000#32 ∧
    (0xE0000000#32).toNat / 2 ^ 29 = 7 ∧ (0x21000019#32).toNat / 2 ^ 24 % 32 ≠ 0 ∧
    ((0x20010019#32).toNat / 2 ^ 29 ≠ 4 ∧ (0x20010019#32).toNat / 2 ^ 16 % 256 ≠ 0) := by decide

/-- OtherOperationsReturnOneCount and OnlyAsyncTimingReadsTheRom: an operation, and two configurations that differ in a row
only. -/
theorem witness_OnlyAsyncTimingReadsTheRom :
    (∀ a, Instr.syncHold 25 ≠ .asyncTiming a) ∧
    ∃ c : Cfg, c ≠ illus ∧ c.clkNum = illus.clkNum ∧ c.clkDen = illus.clkDen ∧ c.fpgaOverhead = illus.fpgaOverhead ∧
      c.periodMax = illus.periodMax :=
  ⟨fun _ => by simp,
   { toCfgData := { illus.toCfgData with asyncRow3 := ⟨0, 0, 0, 0⟩ }, wf := by decide },
   by decide, by decide, by decide, by decide, by decide⟩

/-- StepRunsTheDecodedOperation, and every statement about a settled word (OutputsDependOnConfigurationAndWordAlone,
ErrorExactlyForTheListedCauses). -/
theorem witness_StepRunsTheDecodedOperation :
    ((block illus).present 0x40000019#32).req = .settled 0x40000019#32 ∧ decode 0x40000019#32 = .ok (.syncHold 25) := by
  decide

/-- UnsettledRequestGivesFreeOutputs. -/
theorem witness_UnsettledRequestGivesFreeOutputs : State.reset.req = .unsettled := rfl

/-- A state whose outputs go with its request. -/
def soundBlock : State := (block illus).present 0x40000019#32 |>.respond (.ok 2 0 0 0)

/-- OperationsChangeOnlyTheOutputs, StepNeverWritesConfigurationOrRom and OutputsHoldWhileTheRequestDoes: a step and an
operation with a next state. -/
theorem witness_StepNeverWritesConfigurationOrRom :
    soundBlock.req = .settled 0x40000019#32 ∧ step soundBlock = .next soundBlock ∧
    exec (.syncHold 25) soundBlock = .next soundBlock := ⟨rfl, rfl, rfl⟩

/-- StepKeepsOutputsSound: a state with a request that meets the invariant, and its step. -/
theorem witness_StepKeepsOutputsSound : (soundBlock.Sound ∧ soundBlock.rom.wf) ∧ step soundBlock = .next soundBlock := by
  refine ⟨⟨fun w h => ?_, by decide⟩, rfl⟩
  have hw : w = 0x40000019#32 := by simpa [soundBlock, eq_comm] using h
  subst hw
  refine ⟨⟨fun h => absurd h (by decide), fun ⟨e, he⟩ => ?_⟩, fun h => absurd h (by decide), fun _ => by decide⟩
  exfalso
  cases e <;> revert he <;> simp only [Cause.Applies, IsPeriodOp] <;> decide

/-- MemReadIsDefinedExactlyInsideTheRom: the last row. -/
theorem witness_MemReadIsDefinedExactlyInsideTheRom :
    memRead (block illus).rom 16 4 = some [6, 4, 4, 4] ∧ memRead (block illus).rom 0 0 = none := by decide

/-- BuildRefusesExactlyIllFormedConfigurations: one of each kind. -/
theorem witness_BuildRefusesExactlyIllFormedConfigurations :
    illus.toCfgData.WellFormed ∧ ¬ ({ illus.toCfgData with clkDen := 0 } : CfgData).WellFormed := by decide

/-- SyncTimingIsItsFourRequests, first part: ILLUS at 25 (95 P2). -/
theorem witness_SyncTimingIsItsFourRequests :
    exec (.syncDeskew 25) (block illus) = .next { block illus with rsp := ⟨false, 2, 0, 0, 0⟩ } ∧
    exec (.syncHold 25) (block illus) = .next { block illus with rsp := ⟨false, 2, 0, 0, 0⟩ } ∧
    exec (.syncAssertWr 25 (2 : Count).toNat) (block illus) = .next { block illus with rsp := ⟨false, 2, 0, 0, 0⟩ } ∧
    exec (.syncAssertRd 25) (block illus) = .next { block illus with rsp := ⟨false, 4, 0, 0, 0⟩ } := ⟨rfl, rfl, rfl, rfl⟩

/-- SyncTimingIsItsFourRequests, second part: ILLUS at 1 (95 P4), where the write assertion is
rejected, and `slow` at 26, where the read assertion is; third part: -1. -/
theorem witness_SyncTimingIsItsFourRequests_fails :
    (-32768 : Int) ≤ 1 ∧ (1 : Int) ≤ 32767 ∧
    exec (.syncDeskew 1) (block illus) = .next { block illus with rsp := ⟨false, 2, 0, 0, 0⟩ } ∧
    exec (.syncAssertWr 1 (2 : Count).toNat) (block illus) = .next { block illus with rsp := ⟨true, 0, 0, 0, 0⟩ } ∧
    exec (.syncDeskew 26) (block slow) = .next { block slow with rsp := ⟨false, 2, 0, 0, 0⟩ } ∧
    exec (.syncAssertRd 26) (block slow) = .next { block slow with rsp := ⟨true, 0, 0, 0, 0⟩ } ∧
    exec (.syncDeskew (-1)) (block illus) = .next { block illus with rsp := ⟨true, 0, 0, 0, 0⟩ } :=
  ⟨by decide, by decide, rfl, rfl, rfl, rfl, rfl⟩

/-- NamedClassAndGeneralReadAsk: both ends of the periods. -/
theorem witness_NamedClassAndGeneralReadAsk :
    ((25 : Int) < 26 ∧ (26 : Int) ≤ 32767) ∧ ((25 : Int) < 32767 ∧ (32767 : Int) ≤ 32767) := by decide

/-- RowsZeroToTwoAreOrdered: the first and the last field. -/
theorem witness_RowsZeroToTwoAreOrdered : 0 < 4 ∧ 3 < 4 := by decide

end Sys2Proof.Tests
end

section
/-! PROOFS. `Resolve(cfg, decode(req))` of 70_reset_and_hazards.md R98 as a function of the configuration and the word, and
that every operation and every step on a settled word answers with it (00_scope.md R12). -/

namespace Sys2Proof.Proofs
open Sys2Proof.Machine Sys2Proof.Laws

/-! ## The response, with no state in it -/

/-- The response of `return v` (00_scope.md R11). -/
def oneCount (v : Count) : Response := .ok v 0 0 0

/-- The response of an accepted speed class (40_async_lookup.md R62). -/
def rowResponse (r : AsyncRow) : Response :=
  .ok (r.assert.zeroExtend 16) (r.deskew.zeroExtend 16) (r.hold.zeroExtend 16) (r.glitch.zeroExtend 16)

/-- The response to an assertion budget of either sign (42_sync_calc.md R71, R73). -/
def assertionResponse (n : Int) : Response :=
  if n < 0 then .invalidConfiguration else oneCount (BitVec.ofNat 16 (n.toNat / 2))

/-- The response of a period operation that answers `f p` to an accepted period `p` (41_sync_select.md R64). -/
def periodResponse (c : Cfg) (p : Int) (f : Nat → Response) : Response :=
  (checkPeriod c p).elim .invalidConfiguration f

/-- The response of an operation under a configuration. -/
def resolve (c : Cfg) : Instr → Response
  | .asyncTiming a => (speedClass a).elim .invalidConfiguration fun i => rowResponse (rowAt c i)
  | .syncDeskew p => periodResponse c p fun q => oneCount (deskewOf q)
  | .syncHold p => periodResponse c p fun q => oneCount (holdOf q)
  | .periodToClks p => periodResponse c p fun q => oneCount (BitVec.ofNat 16 (clks c q))
  | .syncAssertWr p d => periodResponse c p fun q => assertionResponse (assertBudget c q d)
  | .syncAssertRd p => periodResponse c p fun q =>
      if q ≤ fastestMax then oneCount syncAssertRdFast else assertionResponse (assertBudget c q 0)
  | .selTimeout a => (fastModeFlag a).elim .invalidConfiguration fun fast =>
      oneCount (if fast then selTimeoutFast else selTimeoutDefault)

/-- The response to a request word under a configuration: the error for an ill-formed word (30_encoding.md R50). -/
def resolveWord (c : Cfg) (w : Word) : Response :=
  match decode w with
  | .error _ => .invalidConfiguration
  | .ok i => resolve c i

/-! ## Each operation answers with it -/

theorem speedClass_lt {a : Int} {i : Nat} (h : speedClass a = some i) : i < 5 := by
  unfold speedClass asyncRows at h
  split at h <;> cases h
  omega

theorem returnAssertion_eq_respond (n : Int) (s : State) :
    returnAssertion n s = .next (s.respond (assertionResponse n)) := by
  unfold assertionResponse
  split
  next hn => exact returnAssertion_of_neg hn s
  next hn => exact returnAssertion_of_nonneg (Int.not_lt.1 hn) s

theorem execAsyncTiming_eq_respond (a : Int) (s : State) :
    execAsyncTiming a s = .next (s.respond (resolve s.cfg (.asyncTiming a))) := by
  rw [execAsyncTiming, resolve]
  cases h : speedClass a with
  | none => rfl
  | some i => simp only [State.rom, memRead_row s.cfg (speedClass_lt h)]; rfl

theorem execSyncDeskew_eq_respond (p : Int) (s : State) :
    execSyncDeskew p s = .next (s.respond (resolve s.cfg (.syncDeskew p))) := by
  rw [execSyncDeskew, resolve, periodResponse]
  cases checkPeriod s.cfg p with
  | none => rfl
  | some q => rfl

theorem execSyncHold_eq_respond (p : Int) (s : State) :
    execSyncHold p s = .next (s.respond (resolve s.cfg (.syncHold p))) := by
  rw [execSyncHold, resolve, periodResponse]
  cases checkPeriod s.cfg p with
  | none => rfl
  | some q => rfl

theorem execPeriodToClks_eq_respond (p : Int) (s : State) :
    execPeriodToClks p s = .next (s.respond (resolve s.cfg (.periodToClks p))) := by
  rw [execPeriodToClks, resolve, periodResponse]
  cases checkPeriod s.cfg p with
  | none => rfl
  | some q => rfl

theorem execSyncAssertWr_eq_respond (p : Int) (d : Nat) (s : State) :
    execSyncAssertWr p d s = .next (s.respond (resolve s.cfg (.syncAssertWr p d))) := by
  rw [execSyncAssertWr, resolve, periodResponse]
  cases checkPeriod s.cfg p with
  | none => rfl
  | some q => exact returnAssertion_eq_respond _ s

theorem execSyncAssertRd_eq_respond (p : Int) (s : State) :
    execSyncAssertRd p s = .next (s.respond (resolve s.cfg (.syncAssertRd p))) := by
  rw [execSyncAssertRd, resolve, periodResponse]
  cases checkPeriod s.cfg p with
  | none => rfl
  | some q =>
    by_cases hq : q ≤ fastestMax
    · simp [hq, returnOne_eq, oneCount]
    · simp [hq, returnAssertion_eq_respond]

theorem execSelTimeout_eq_respond (a : Int) (s : State) :
    execSelTimeout a s = .next (s.respond (resolve s.cfg (.selTimeout a))) := by
  rw [execSelTimeout, resolve]
  cases fastModeFlag a with
  | none => rfl
  | some fast => cases fast <;> rfl

/-- Every operation completes, with the response its configuration alone determines, and changes nothing but the outputs. -/
theorem exec_eq_respond_resolve (i : Instr) (s : State) : exec i s = .next (s.respond (resolve s.cfg i)) := by
  cases i with
  | asyncTiming a => exact execAsyncTiming_eq_respond a s
  | syncDeskew p => exact execSyncDeskew_eq_respond p s
  | syncHold p => exact execSyncHold_eq_respond p s
  | periodToClks p => exact execPeriodToClks_eq_respond p s
  | syncAssertWr p d => exact execSyncAssertWr_eq_respond p d s
  | syncAssertRd p => exact execSyncAssertRd_eq_respond p s
  | selTimeout a => exact execSelTimeout_eq_respond a s

/-! ## The step -/

theorem resolveWord_of_decoded {w : Word} {i : Instr} (hd : decode w = .ok i) (c : Cfg) :
    resolveWord c w = resolve c i := by
  simp [resolveWord, hd]

theorem resolveWord_of_illFormed {w : Word} {e : DecodeError} (hd : decode w = .error e) (c : Cfg) :
    resolveWord c w = .invalidConfiguration := by
  simp [resolveWord, hd]

/-- `step(cfg, req) = Resolve(cfg, decode(req))` (70_reset_and_hazards.md R98). -/
theorem step_of_settled {s : State} {w : Word} (hr : s.req = .settled w) :
    step s = .next (s.respond (resolveWord s.cfg w)) := by
  cases hd : decode w with
  | error e => rw [step_of_illFormed hr hd, resolveWord_of_illFormed hd]
  | ok i => rw [step_of_decoded hr hd, exec_eq_respond_resolve, resolveWord_of_decoded hd]

/-- Settles O30: the function is the ports' form of `resolveWord`, which has no argument but the configuration and the
word. -/
theorem outputsDependOnConfigurationAndWordAlone : Obligations.OutputsDependOnConfigurationAndWordAlone :=
  ⟨fun c w => (resolveWord c w).wires, fun _ _ hr => step_of_settled hr⟩

end Sys2Proof.Proofs
end

section
/-! PROOFS. The frames of the operations and of the step (10_state.md R20, R21; 20_memory.md R33), and the invariant's base
case at reset (10_state.md R22). -/

namespace Sys2Proof.Proofs
open Sys2Proof.Machine Sys2Proof.Laws

/-! ## What an operation and a step can do -/

/-- The outcome of an operation, from its next state: the same state with some response on the outputs. -/
theorem eq_respond_of_exec {i : Instr} {s t : State} (h : exec i s = .next t) : t = s.respond (resolve s.cfg i) := by
  rw [exec_eq_respond_resolve] at h
  cases h
  rfl

/-- Everything a step can do: it responds to the settled word, or the outputs of unsettled inputs take the next free value
(log 4). -/
theorem step_cases {s t : State} (h : step s = .next t) :
    (∃ w, s.req = .settled w ∧ t = s.respond (resolveWord s.cfg w)) ∨
    (s.req = .unsettled ∧
      t = { s with rsp := Wires.ofPacked (Config.unspecifiedRsp s.freeUsed), freeUsed := s.freeUsed + 1 }) := by
  cases hr : s.req with
  | unsettled =>
    rw [step_of_unsettled hr, answerUnsettled] at h
    cases h
    exact .inr ⟨rfl, by rw [hr]⟩
  | settled w =>
    rw [step_of_settled hr] at h
    cases h
    exact .inl ⟨w, rfl, rfl⟩

/-- No state holds a ROM of its own: it follows from the configuration (log 9). -/
theorem rom_eq_of_cfg_eq {s t : State} (h : t.cfg = s.cfg) : t.rom = s.rom := congrArg romOf h

theorem step_keeps_cfg {s t : State} (h : step s = .next t) : t.cfg = s.cfg := by
  obtain ⟨w, -, rfl⟩ | ⟨-, rfl⟩ := step_cases h
  · exact respond_cfg s _
  · rfl

theorem step_keeps_req {s t : State} (h : step s = .next t) : t.req = s.req := by
  obtain ⟨w, -, rfl⟩ | ⟨-, rfl⟩ := step_cases h
  · exact respond_req s _
  · rfl

theorem step_keeps_rom {s t : State} (h : step s = .next t) : t.rom = s.rom := rom_eq_of_cfg_eq (step_keeps_cfg h)

/-- Settles O28: an operation's next state is the old one with a response on the outputs, and a response leaves every
other field. -/
theorem operationsChangeOnlyTheOutputs : Obligations.OperationsChangeOnlyTheOutputs := by
  intro i s t h
  obtain rfl := eq_respond_of_exec h
  exact ⟨respond_cfg s _, respond_req s _, respond_freeUsed s _, fun a => by rw [respond_rom], rfl⟩

/-- Settles O29: neither of the two things a step can do writes the configuration, on which the ROM depends, or the request
inputs. -/
theorem stepNeverWritesConfigurationOrRom : Obligations.StepNeverWritesConfigurationOrRom :=
  fun _ _ h => ⟨step_keeps_cfg h, step_keeps_req h, fun a => by rw [step_keeps_rom h]⟩

/-! ## The invariant at reset -/

/-- The invariant binds the outputs to a settled word only (70_reset_and_hazards.md R98). -/
theorem sound_of_unsettled {s : State} (h : s.req = .unsettled) : s.Sound := by
  intro w hw
  rw [h] at hw
  cases hw

/-- Settles O33: no request is presented at reset (log 3), the ROM of every configuration is in canonical form, and a
configuration carries its well-formedness. -/
theorem resetIsSound : Obligations.ResetIsSound :=
  ⟨sound_of_unsettled reset_req, reset_rom_wf, State.reset.cfg.wf⟩

end Sys2Proof.Proofs
end

section
/-! PROOFS. The timing ROM (20_memory.md): what `readCells` and `MemRead` answer on any memory, the cells of each row, the
order of the rows, and that no operation but ASYNC_TIMING depends on the configured rows. -/

namespace Sys2Proof.Proofs
open Sys2Proof.Machine Sys2Proof.Laws

/-! ## Reading consecutive cells of any memory -/

/-- A list of cells is read exactly if it spells the reads of the consecutive addresses, lowest first. -/
theorem readCells_eq_some_iff {m : Memory} {addr n : Nat} {cells : List Byte} :
    readCells m addr n = some cells ↔ (List.range' addr n).map m.read = cells.map some := by
  induction n generalizing addr cells with
  | zero => cases cells <;> simp [readCells]
  | succ n ih =>
    rw [readCells, List.range'_succ, List.map_cons]
    constructor
    · intro h
      split at h
      next c cs hc hcs =>
        cases h
        rw [hc, ih.1 hcs, List.map_cons]
      next => cases h
    · intro h
      cases cells with
      | nil => simp at h
      | cons c cs =>
        obtain ⟨hc, hcs⟩ := List.cons.inj h
        rw [hc, ih.2 hcs]

theorem readCells_isSome_iff {m : Memory} {addr n : Nat} :
    (readCells m addr n).isSome = true ↔ ∀ k, k < n → (m.read (addr + k)).isSome = true := by
  induction n generalizing addr with
  | zero => simp [readCells]
  | succ n ih =>
    have htail : (readCells m (addr + 1) n).isSome = true ↔ ∀ k, k < n → (m.read (addr + (k + 1))).isSome = true := by
      rw [ih]
      simp only [Nat.add_assoc, Nat.add_comm 1]
    rw [Nat.forall_lt_succ_left, ← htail, readCells]
    cases m.read addr <;> cases readCells m (addr + 1) n <;> simp

theorem memRead_eq_some_iff {m : Memory} {addr n : Nat} {cells : List Byte} :
    memRead m addr n = some cells ↔ 1 ≤ n ∧ readCells m addr n = some cells := by
  cases n <;> simp [memRead]

theorem memRead_isSome_iff {m : Memory} {addr n : Nat} :
    (memRead m addr n).isSome = true ↔ 1 ≤ n ∧ ∀ k, k < n → (m.read (addr + k)).isSome = true := by
  rw [← readCells_isSome_iff]
  cases n <;> simp [memRead]

theorem length_of_memRead {m : Memory} {addr n : Nat} {cells : List Byte} (h : memRead m addr n = some cells) :
    cells.length = n := by
  obtain ⟨-, h⟩ := memRead_eq_some_iff.1 h
  simpa using (congrArg List.length (readCells_eq_some_iff.1 h)).symm

theorem getElem?_of_memRead {m : Memory} {addr n : Nat} {cells : List Byte} (h : memRead m addr n = some cells) {k : Nat}
    (hk : k < n) : cells[k]? = m.read (addr + k) := by
  have hlen := length_of_memRead h
  obtain ⟨-, h⟩ := memRead_eq_some_iff.1 h
  have hcell := congrArg (·[k]?) (readCells_eq_some_iff.1 h)
  simpa [hk, hlen, eq_comm] using hcell

/-! ## The cells of the timing ROM -/

/-- The fields of a row in the order of its cells (20_memory.md R28); tied to the ROM by `romOf_read_row`. -/
def rowField (r : AsyncRow) : Nat → Byte
  | 0 => r.assert
  | 1 => r.deskew
  | 2 => r.hold
  | _ => r.glitch

/-- Cell `4*i + f` is field `f` of row `i` (20_memory.md R28). -/
theorem romOf_read_row (c : Cfg) {i f : Nat} (hi : i < 5) (hf : f < 4) :
    (romOf c).read (4 * i + f) = some (rowField (rowAt c i) f) := by
  rw [← getElem?_of_memRead (memRead_row c hi) hf]
  match f, hf with
  | 0, _ => rfl
  | 1, _ => rfl
  | 2, _ => rfl
  | 3, _ => rfl

/-- The addresses that exist (20_memory.md R34). -/
theorem romOf_read_isSome_iff (c : Cfg) {a : Nat} : ((romOf c).read a).isSome = true ↔ a < 20 := by
  constructor
  · intro h
    by_contra ha
    simp [romOf_read_none c (Nat.le_of_not_lt ha)] at h
  · intro ha
    have hcell := romOf_read_row c (i := a / 4) (f := a % 4) (by omega) (by omega)
    rw [Nat.div_add_mod] at hcell
    simp [hcell]

/-- Settles O37: a run of addresses lies in the ROM exactly if its last one does. -/
theorem memReadIsDefinedExactlyInsideTheRom : Obligations.MemReadIsDefinedExactlyInsideTheRom := by
  refine fun s addr n => ⟨?_, fun cells h => ⟨length_of_memRead h, fun k hk => getElem?_of_memRead h hk⟩⟩
  simp only [State.rom, memRead_isSome_iff, romOf_read_isSome_iff]
  constructor
  · rintro ⟨hn, hin⟩
    have hlast := hin (n - 1) (by omega)
    omega
  · rintro ⟨hn, hle⟩
    exact ⟨hn, fun k hk => by omega⟩

/-- Settles O36: the 20 lookups evaluate under every configuration, since the addresses are literals. -/
theorem romContents : Obligations.RomContents :=
  fun s => ⟨rfl, rfl, fun _ ha => romOf_read_none s.cfg ha⟩

/-! ## The order of the rows (20_memory.md R31) -/

/-- The configured row 1 lies between the two fixed rows in each field (00_scope.md R8 (e)). -/
theorem rowField_row1_between (c : Cfg) {f : Nat} (hf : f < 4) :
    (rowField asyncRow2 f).toNat ≤ (rowField c.asyncRow1 f).toNat ∧
    (rowField c.asyncRow1 f).toNat ≤ (rowField asyncRow0 f).toNat := by
  obtain ⟨-, -, -, -, hassert, hdeskew, hhold, hglitch, -⟩ := c.wf
  match f, hf with
  | 0, _ => exact hassert
  | 1, _ => exact hdeskew
  | 2, _ => exact hhold
  | 3, _ => exact hglitch

/-- A well-formed configuration whose rows 3 and 4 rise above row 2 in each field. -/
def risingRows : Cfg :=
  { clkNum := 1, clkDen := 1, fpgaOverhead := 0, periodMax := 80, asyncRow1 := ⟨8, 5, 5, 5⟩,
    asyncRow3 := ⟨9, 6, 6, 6⟩, asyncRow4 := ⟨10, 7, 7, 7⟩, wf := by decide }

theorem risingRows_rise : ∀ f, f < 4 →
    (rowField asyncRow2 f).toNat < (rowField risingRows.asyncRow3 f).toNat ∧
    (rowField risingRows.asyncRow3 f).toNat < (rowField risingRows.asyncRow4 f).toNat := by
  decide

/-- Settles O38: the cells are the fields of the rows, of which the configuration orders the first three and
`risingRows` orders the last three the other way. -/
theorem rowsZeroToTwoAreOrdered : Obligations.RowsZeroToTwoAreOrdered := by
  refine ⟨fun s f hf => ?_, risingRows, fun f hf => ?_⟩
  · have hrow0 := romOf_read_row s.cfg (i := 0) (by decide) hf
    rw [Nat.mul_zero, Nat.zero_add] at hrow0
    exact ⟨_, _, _, hrow0, romOf_read_row s.cfg (i := 1) (by decide) hf, romOf_read_row s.cfg (i := 2) (by decide) hf,
      rowField_row1_between s.cfg hf⟩
  · exact ⟨_, _, _, romOf_read_row risingRows (i := 2) (by decide) hf, romOf_read_row risingRows (i := 3) (by decide) hf,
      romOf_read_row risingRows (i := 4) (by decide) hf, risingRows_rise f hf⟩

/-! ## Operations that do not reach the ROM (20_memory.md R32) -/

/-- Two configurations that can differ in the configured rows only. -/
structure AgreeOffTheRows (c c' : Cfg) : Prop where
  clkNum : c.clkNum = c'.clkNum
  clkDen : c.clkDen = c'.clkDen
  fpgaOverhead : c.fpgaOverhead = c'.fpgaOverhead
  periodMax : c.periodMax = c'.periodMax

section
variable {c c' : Cfg} (h : AgreeOffTheRows c c')
include h

theorem AgreeOffTheRows.periodResponse_eq (p : Int) {f g : Nat → Response} (hfg : ∀ q, f q = g q) :
    periodResponse c p f = periodResponse c' p g := by
  rw [periodResponse, periodResponse, checkPeriod, checkPeriod, h.periodMax, funext hfg]

theorem AgreeOffTheRows.clks_eq (p : Nat) : clks c p = clks c' p := by
  rw [clks, clks, h.clkNum, h.clkDen]

theorem AgreeOffTheRows.assertBudget_eq (p d : Nat) : assertBudget c p d = assertBudget c' p d := by
  rw [assertBudget, assertBudget, h.clks_eq, h.fpgaOverhead]

/-- The response reads the rows under ASYNC_TIMING alone. -/
theorem AgreeOffTheRows.resolve_eq {i : Instr} (hi : ∀ a, i ≠ .asyncTiming a) : resolve c i = resolve c' i := by
  cases i with
  | asyncTiming a => exact absurd rfl (hi a)
  | syncDeskew p => exact h.periodResponse_eq p fun _ => rfl
  | syncHold p => exact h.periodResponse_eq p fun _ => rfl
  | periodToClks p => exact h.periodResponse_eq p fun q => by rw [h.clks_eq]
  | syncAssertWr p d => exact h.periodResponse_eq p fun q => by rw [h.assertBudget_eq]
  | syncAssertRd p => exact h.periodResponse_eq p fun q => by rw [h.assertBudget_eq]
  | selTimeout a => rfl

end

/-- Settles O39: the common outputs are the ports' form of the response, which is the same under both configurations. -/
theorem onlyAsyncTimingReadsTheRom : Obligations.OnlyAsyncTimingReadsTheRom := by
  intro i s s' hi hnum hden hoverhead hmax
  have hresolve : resolve s.cfg i = resolve s'.cfg i :=
    AgreeOffTheRows.resolve_eq ⟨hnum, hden, hoverhead, hmax⟩ hi
  refine ⟨(resolve s.cfg i).wires, exec_eq_respond_resolve i s, ?_⟩
  rw [hresolve]
  exact exec_eq_respond_resolve i s'

end Sys2Proof.Proofs
end

section
/-! PROOFS. The decoder and the encoder (30_encoding.md R42 to R51): a word decodes to a request exactly if its fields
spell it, from which the two round trips, the places of the operands and the ill-formed words follow; and the match and
mask columns of the opcode table. -/

namespace Sys2Proof.Proofs
open Sys2Proof.Machine Sys2Proof.Laws

/-! ## The operation codes (30_encoding.md R43) -/

theorem code_cases : ∀ op : BitVec 3, op = 0 ∨ op = 1 ∨ op = 2 ∨ op = 3 ∨ op = 4 ∨ op = 5 ∨ op = 6 ∨ op = 7 := by
  decide

theorem opcode_ne_seven (i : Instr) : i.opcode ≠ 7 := by
  cases i <;> simp [Instr.opcode]

/-- Only SYNC_ASSERT_WR uses operand B (30_encoding.md R45). -/
theorem b_eq_zero_of_opcode_ne_four {i : Instr} (h : i.opcode ≠ 4) : i.b = 0 := by
  cases i with
  | syncAssertWr p d => exact absurd rfl h
  | _ => rfl

/-- A code selects the operation with that code; operand B reaches it under code 4 alone. -/
theorem operationOf_eq_some_iff {op : BitVec 3} {a : Int} {b : Nat} {i : Instr} :
    operationOf op a b = some i ↔ i.opcode = op ∧ i.a = a ∧ (op = 4 → i.b = b) := by
  constructor
  · intro h
    rcases code_cases op with rfl | rfl | rfl | rfl | rfl | rfl | rfl | rfl <;> cases h <;>
      simp [Instr.opcode, Instr.a, Instr.b]
  · rintro ⟨rfl, rfl, hb⟩
    cases i with
    | syncAssertWr p d => rw [← hb rfl]; rfl
    | _ => rfl

theorem operationOf_eq_none_iff {op : BitVec 3} {a : Int} {b : Nat} : operationOf op a b = none ↔ op = 7 := by
  rcases code_cases op with rfl | rfl | rfl | rfl | rfl | rfl | rfl | rfl <;> simp [operationOf]

/-! ## Which words decode -/

/-- Decoding fails in the three cases of 30_encoding.md R49 and in no other. -/
theorem decode_isError_iff {w : Word} :
    (∃ e, decode w = .error e) ↔ opField w = 7 ∨ rsvField w ≠ 0 ∨ (opField w ≠ 4 ∧ bField w ≠ 0) := by
  unfold decode
  split
  next h => simp [operationOf_eq_none_iff.1 h]
  next i h =>
    have h7 : opField w ≠ 7 := fun h7 => by rw [operationOf_eq_none_iff.2 h7] at h; cases h
    split_ifs with hrsv hb
    · exact ⟨fun _ => .inr (.inl hrsv), fun _ => ⟨_, rfl⟩⟩
    · exact ⟨fun _ => .inr (.inr hb), fun _ => ⟨_, rfl⟩⟩
    · exact ⟨fun ⟨_, he⟩ => (nomatch he), fun hw => (hw.elim h7 (·.elim hrsv hb)).elim⟩

theorem decode_eq_ok_iff_operationOf {w : Word} {i : Instr} :
    decode w = .ok i ↔
      operationOf (opField w) (operandA w) (operandB w) = some i ∧ rsvField w = 0 ∧ (opField w ≠ 4 → bField w = 0) := by
  unfold decode
  split
  next h => simp [h]
  next j h =>
    rw [h]
    split_ifs with hrsv hb
    · exact ⟨fun he => (nomatch he), fun ⟨_, hrsv', _⟩ => absurd hrsv' hrsv⟩
    · exact ⟨fun he => (nomatch he), fun ⟨_, _, hb'⟩ => absurd (hb' hb.1) hb.2⟩
    · have hfields : rsvField w = 0 ∧ (opField w ≠ 4 → bField w = 0) := ⟨not_not.1 hrsv, not_and_not_right.1 hb⟩
      rw [Except.ok.injEq, Option.some.injEq, and_iff_left hfields]

/-- A word decodes to a request exactly if its fields spell it: the code, the reserved bits 0, and both operands, B being 0
where the operation does not use it (30_encoding.md R42 to R45, R49). -/
theorem decode_eq_ok_iff {w : Word} {i : Instr} :
    decode w = .ok i ↔ opField w = i.opcode ∧ rsvField w = 0 ∧ operandA w = i.a ∧ operandB w = i.b := by
  have hB : bField w = 0 ↔ operandB w = 0 := BitVec.toNat_eq
  rw [decode_eq_ok_iff_operationOf, operationOf_eq_some_iff, hB]
  constructor
  · rintro ⟨⟨hop, ha, hb⟩, hrsv, hb'⟩
    refine ⟨hop.symm, hrsv, ha.symm, ?_⟩
    by_cases h4 : opField w = 4
    · exact (hb h4).symm
    · rw [hb' h4, b_eq_zero_of_opcode_ne_four (hop ▸ h4)]
  · rintro ⟨hop, hrsv, ha, hb⟩
    exact ⟨⟨hop.symm, ha.symm, fun _ => hb.symm⟩, hrsv, fun h4 => by rw [hb, b_eq_zero_of_opcode_ne_four (hop ▸ h4)]⟩

/-! ## The two round trips (30_encoding.md R51) -/

/-- Two words with the same four fields are the same word (30_encoding.md R42). -/
theorem word_ext {v w : Word} (hop : opField v = opField w) (hrsv : rsvField v = rsvField w) (hb : bField v = bField w)
    (ha : aField v = aField w) : v = w := by
  simp only [BitVec.toNat_eq, toNat_opField, toNat_rsvField, toNat_bField, toNat_aField] at hop hrsv hb ha ⊢
  omega

/-- The requests that have an encoding: operand A fits 16 bits signed and operand B 8 bits (30_encoding.md R44, R45). -/
theorem wellFormed_iff {i : Instr} : i.wellFormed = true ↔ fitsOperandA i.a = true ∧ i.b < 256 := by
  cases i <;> simp [Instr.wellFormed, Instr.a, Instr.b, fitsOperandB, Nat.lt_succ_iff]

/-- Settles O17: the fields of the encoded word are the ones put in, and a well-formed request's operands are read back
from theirs. -/
theorem decodeAfterEncode : Obligations.DecodeAfterEncode := by
  intro i hi
  obtain ⟨ha, hb⟩ := wellFormed_iff.1 hi
  refine decode_eq_ok_iff.2 ⟨opField_packFields .., rsvField_packFields .., ?_, ?_⟩
  · rw [operandA, encode, aField_packFields, signed16_ofInt ha]
  · rw [operandB, encode, bField_packFields, BitVec.toNat_ofNat, Nat.mod_eq_of_lt hb]

/-- Settles O18: the encoded word has the fields of the word decoded, and operands read from fields fit them. -/
theorem encodeAfterDecode : Obligations.EncodeAfterDecode := by
  intro w i h
  obtain ⟨hop, hrsv, ha, hb⟩ := decode_eq_ok_iff.1 h
  constructor
  · rw [encode, ← hop, ← ha, ← hb, operandA, operandB, signed16_eq_toInt, BitVec.ofInt_toInt, BitVec.ofNat_toNat,
      BitVec.setWidth_eq]
    exact word_ext (opField_packFields ..) (by rw [rsvField_packFields, hrsv]) (bField_packFields ..) (aField_packFields ..)
  · rw [wellFormed_iff, ← ha, ← hb]
    exact ⟨signed16_range _, (bField w).isLt⟩

/-! ## The fields as arithmetic on the word (30_encoding.md R42) -/

/-- The ill-formed words of 30_encoding.md R49 as numbers. -/
theorem decode_isError_iff_toNat {w : Word} :
    (∃ e, decode w = .error e) ↔
      (w.toNat / 2 ^ 29 = 7 ∨ w.toNat / 2 ^ 24 % 32 ≠ 0 ∨ (w.toNat / 2 ^ 29 ≠ 4 ∧ w.toNat / 2 ^ 16 % 256 ≠ 0)) := by
  rw [decode_isError_iff, ← toNat_opField, ← toNat_rsvField, ← toNat_bField]
  simp only [ne_eq, BitVec.toNat_eq]
  rfl

/-- Settles O19: the error's three cases in arithmetic, and the step of an ill-formed word. -/
theorem exactlyIllFormedWordsAreNotDecoded : Obligations.ExactlyIllFormedWordsAreNotDecoded := by
  refine ⟨fun w => decode_isError_iff_toNat, fun s w hr hw => ?_⟩
  obtain ⟨e, he⟩ := decode_isError_iff_toNat.2 hw
  exact step_of_illFormed hr he

/-- Settles O20: the fields that spell the request, read as numbers. -/
theorem decodedOperandsComeFromTheirBits : Obligations.DecodedOperandsComeFromTheirBits := by
  intro w i h
  obtain ⟨hop, -, ha, hb⟩ := decode_eq_ok_iff.1 h
  refine ⟨?_, ?_, ?_⟩
  · rw [← hop, toNat_opField]
  · rw [← hb, operandB, toNat_bField]
  · rw [← ha, operandA, signed16, toNat_aField]

/-- Settles O22: the table of 30_encoding.md R55, each word decoded. -/
theorem workedEncodings : Obligations.WorkedEncodings := by
  unfold Obligations.WorkedEncodings
  decide

/-! ## The opcode table (30_encoding.md R51) -/

/-- The table's row of an operation: `match` holds the operation code alone, and `mask` leaves out the bits of the operands
that the operation uses. -/
def rowOf (i : Instr) : OpcodeRow :=
  ⟨i.mnemonic, packFields i.opcode 0 0, if i.opcode = 4 then 0xFF000000#32 else 0xFFFF0000#32⟩

/-- One operation for each code, in the order of the codes. -/
def operations : List Instr :=
  [.asyncTiming 0, .syncDeskew 0, .syncHold 0, .periodToClks 0, .syncAssertWr 0 0, .syncAssertRd 0, .selTimeout 0]

theorem opcodeTable_eq : opcodeTable = operations.map rowOf := by
  decide

/-- A row selects a word field by field. -/
theorem selects_iff_fields {r : OpcodeRow} {w : Word} :
    r.selects w = true ↔
      opField w &&& opField r.maskBits = opField r.matchBits ∧ rsvField w &&& rsvField r.maskBits = rsvField r.matchBits ∧
      bField w &&& bField r.maskBits = bField r.matchBits ∧ aField w &&& aField r.maskBits = aField r.matchBits := by
  simp only [OpcodeRow.selects, beq_iff_eq, opField, rsvField, bField, aField, ← BitVec.extractLsb'_and]
  constructor
  · intro h
    simp only [h, and_self]
  · rintro ⟨hop, hrsv, hb, ha⟩
    exact word_ext hop hrsv hb ha

/-- The row of an operation selects the words with its code, the reserved bits 0, and operand B 0 where it is not used. -/
theorem rowOf_selects_iff {i : Instr} {w : Word} :
    (rowOf i).selects w = true ↔ opField w = i.opcode ∧ rsvField w = 0 ∧ (i.opcode ≠ 4 → bField w = 0) := by
  have hwr : opField 0xFF000000#32 = .allOnes 3 ∧ rsvField 0xFF000000#32 = .allOnes 5 ∧ bField 0xFF000000#32 = 0 ∧
    aField 0xFF000000#32 = 0 := by decide
  have hother : opField 0xFFFF0000#32 = .allOnes 3 ∧ rsvField 0xFFFF0000#32 = .allOnes 5 ∧
    bField 0xFFFF0000#32 = .allOnes 8 ∧ aField 0xFFFF0000#32 = 0 := by decide
  rw [selects_iff_fields, rowOf]
  split
  next h4 => simp [-BitVec.reduceAllOnes, hwr, h4]
  next h4 => simp [-BitVec.reduceAllOnes, hother, show i.opcode ≠ 4#3 from h4]

/-- On a word that decodes, the rows are told apart by their codes. -/
theorem rowOf_selects_of_decoded {w : Word} {i : Instr} (h : decode w = .ok i) (j : Instr) :
    (rowOf j).selects w = decide (j.opcode = i.opcode) := by
  obtain ⟨hop, hrsv, -, hb⟩ := decode_eq_ok_iff.1 h
  have hb0 (h4 : i.opcode ≠ 4) : bField w = 0 := BitVec.toNat_eq.2 (hb.trans (b_eq_zero_of_opcode_ne_four h4))
  rw [Bool.eq_iff_iff, rowOf_selects_iff, decide_eq_true_iff]
  constructor
  · rintro ⟨hj, -⟩
    rw [← hj, hop]
  · intro hj
    exact ⟨by rw [hop, hj], hrsv, fun h4 => hb0 (hj ▸ h4)⟩

/-- Each of the three defects of 30_encoding.md R49 keeps every row from selecting the word. -/
theorem rowOf_selects_of_illFormed {w : Word} {e : DecodeError} (h : decode w = .error e) (j : Instr) :
    (rowOf j).selects w = false := by
  rw [Bool.eq_false_iff, ne_eq, rowOf_selects_iff]
  rintro ⟨hop, hrsv, hb⟩
  rcases decode_isError_iff.1 ⟨e, h⟩ with h7 | hrsv' | ⟨h4, hb'⟩
  · exact opcode_ne_seven j (hop ▸ h7)
  · exact hrsv' hrsv
  · exact hb' (hb (hop ▸ h4))

/-- Settles O21: the rows that select a word that decodes are those with its operation's code, which is one row; no row
selects any other word. -/
theorem opcodeTableSelectsTheDecodedRow : Obligations.OpcodeTableSelectsTheDecodedRow := by
  intro w
  rw [opcodeTable_eq, List.filter_map, List.map_map]
  cases h : decode w with
  | error e => simp [Function.comp_def, rowOf_selects_of_illFormed h]
  | ok i =>
    simp only [Function.comp_def, rowOf_selects_of_decoded h]
    cases i <;> rfl

end Sys2Proof.Proofs
end

section
/-! PROOFS. The output wires (30_encoding.md R46, R47), and the requests a caller puts to the block: the
pseudo-instructions (R54) answer what their operations answer. -/

namespace Sys2Proof.Proofs
open Sys2Proof.Machine Sys2Proof.Laws

/-! ## The packed response (30_encoding.md R46) -/

section
variable (o : Wires)

theorem packed_err : o.packed.getLsbD 64 = o.err := by
  simp only [Wires.packed, BitVec.getLsbD_append, Nat.reduceLT, if_false, Nat.reduceSub, BitVec.getLsbD_ofBool]
  rfl

theorem packed_r0 : o.packed.extractLsb' 48 16 = o.r0 := by
  simp (disch := decide) only [Wires.packed, BitVec.extractLsb'_append_eq_of_le, Nat.reduceSub,
    BitVec.extractLsb'_append_eq_right]

theorem packed_r1 : o.packed.extractLsb' 32 16 = o.r1 := by
  simp (disch := decide) only [Wires.packed, BitVec.extractLsb'_append_eq_of_le, Nat.reduceSub,
    BitVec.extractLsb'_append_eq_right]

theorem packed_r2 : o.packed.extractLsb' 16 16 = o.r2 := by
  simp (disch := decide) only [Wires.packed, BitVec.extractLsb'_append_eq_of_le, Nat.reduceSub,
    BitVec.extractLsb'_append_eq_right]

theorem packed_r3 : o.packed.extractLsb' 0 16 = o.r3 := BitVec.extractLsb'_append_eq_right

theorem ofPacked_packed : Wires.ofPacked o.packed = o := by
  rw [Wires.ofPacked, packed_err, packed_r0, packed_r1, packed_r2, packed_r3]

end

/-- Settles O23: each port read off its place in the packed word, and the response read off the ports. -/
theorem responseOnTheWires : Obligations.ResponseOnTheWires :=
  ⟨fun o => ⟨packed_err o, packed_r0 o, packed_r1 o, packed_r2 o, packed_r3 o, ofPacked_packed o⟩, fun _ _ _ _ => rfl,
    wires_error, response_wires⟩

/-! ## Operations with one count (30_encoding.md R47) -/

/-- A response with no second, third or fourth count. -/
def AtMostOneCount (r : Response) : Prop := ∃ (e : Bool) (v : Count), r.wires = ⟨e, v, 0, 0, 0⟩

theorem atMostOneCount_error : AtMostOneCount .invalidConfiguration := ⟨true, 0, rfl⟩

theorem atMostOneCount_oneCount (v : Count) : AtMostOneCount (oneCount v) := ⟨false, v, rfl⟩

theorem atMostOneCount_assertionResponse (n : Int) : AtMostOneCount (assertionResponse n) := by
  unfold assertionResponse
  split
  · exact atMostOneCount_error
  · exact atMostOneCount_oneCount _

/-- A check that rejects, or else an answer with one count, is an answer with at most one count. -/
theorem atMostOneCount_elim {α : Type} {f : α → Response} (h : ∀ x, AtMostOneCount (f x)) (x : Option α) :
    AtMostOneCount (x.elim .invalidConfiguration f) := by
  cases x with
  | none => exact atMostOneCount_error
  | some x => exact h x

theorem atMostOneCount_resolve (c : Cfg) {i : Instr} (hi : ∀ a, i ≠ .asyncTiming a) : AtMostOneCount (resolve c i) := by
  cases i with
  | asyncTiming a => exact absurd rfl (hi a)
  | syncDeskew p => exact atMostOneCount_elim (fun _ => atMostOneCount_oneCount _) _
  | syncHold p => exact atMostOneCount_elim (fun _ => atMostOneCount_oneCount _) _
  | periodToClks p => exact atMostOneCount_elim (fun _ => atMostOneCount_oneCount _) _
  | syncAssertWr p d => exact atMostOneCount_elim (fun _ => atMostOneCount_assertionResponse _) _
  | syncAssertRd p =>
    refine atMostOneCount_elim (fun q => ?_) _
    split
    · exact atMostOneCount_oneCount _
    · exact atMostOneCount_assertionResponse _
  | selTimeout a => exact atMostOneCount_elim (fun _ => atMostOneCount_oneCount _) _

/-- Settles O24: the next state carries the operation's response, which has at most one count. -/
theorem otherOperationsReturnOneCount : Obligations.OtherOperationsReturnOneCount := by
  intro i s hi
  obtain ⟨e, v, h⟩ := atMostOneCount_resolve s.cfg hi
  exact ⟨e, v, by rw [exec_eq_respond_resolve, State.respond, h]⟩

/-! ## The response and what a caller sees of it -/

/-- The outputs of an operation are its response's. -/
theorem resolve_of_exec {i : Instr} {s : State} {o : Wires} (h : exec i s = .next { s with rsp := o }) :
    resolve s.cfg i = o.response := by
  have hrsp := congrArg State.rsp (eq_respond_of_exec h)
  rw [respond_rsp] at hrsp
  rw [show o = _ from hrsp, response_wires]

/-- A well-formed request is served as its operation, on the block that holds its word. -/
theorem serve_encode {i : Instr} (hi : i.wellFormed = true) (s : State) :
    serve s (encode i) = .next ((s.present (encode i)).respond (resolve s.cfg i)) := by
  rw [serve, step_of_decoded (present_req s _) (decodeAfterEncode i hi), exec_eq_respond_resolve, present_cfg]

/-- The count a caller takes from a response, if there is one. -/
def firstCount : Response → Option Count
  | .ok r0 _ _ _ => some r0
  | .invalidConfiguration => none

theorem firstCount_of_exec_ok {i : Instr} {s : State} {v : Count}
    (h : exec i s = .next { s with rsp := ⟨false, v, 0, 0, 0⟩ }) : firstCount (resolve s.cfg i) = some v :=
  congrArg firstCount (resolve_of_exec h)

theorem firstCount_of_exec_error {i : Instr} {s : State}
    (h : exec i s = .next { s with rsp := ⟨true, 0, 0, 0, 0⟩ }) : firstCount (resolve s.cfg i) = none :=
  congrArg firstCount (resolve_of_exec h)

/-- A well-formed request gives its response's count, on a block that only holds other inputs and outputs. -/
theorem request_eq {i : Instr} (hi : i.wellFormed = true) (s : State) :
    request s i =
      (firstCount (resolve s.cfg i)).map fun v => (v, (s.present (encode i)).respond (resolve s.cfg i)) := by
  rw [request, serve_encode hi]
  simp only [respond_rsp, response_wires]
  cases resolve s.cfg i <;> rfl

/-! ## Accepted periods -/

theorem checkPeriod_eq_some {c : Cfg} {p : Int} {q : Nat} (h : checkPeriod c p = some q) :
    0 ≤ p ∧ p ≤ c.periodMax ∧ q = p.toNat := by
  unfold checkPeriod at h
  split at h <;> cases h
  omega

theorem fitsOperandA_iff {a : Int} : fitsOperandA a = true ↔ -32768 ≤ a ∧ a ≤ 32767 := by
  simp [fitsOperandA]

/-- Every accepted period fits operand A (00_scope.md R8 (d)). -/
theorem fitsOperandA_of_checkPeriod {c : Cfg} {p : Int} {q : Nat} (h : checkPeriod c p = some q) :
    fitsOperandA p = true := by
  obtain ⟨h0, hmax, -⟩ := checkPeriod_eq_some h
  obtain ⟨-, -, -, hle, -⟩ := c.wf
  exact fitsOperandA_iff.2 ⟨by omega, by omega⟩

/-- The selected deskew, 2 or 5, fits operand B (30_encoding.md R54). -/
theorem deskewOf_le (q : Nat) : (deskewOf q).toNat ≤ 255 := by
  unfold deskewOf
  split <;> decide

/-- Above the fastest class the read assertion is the write assertion with deskew 0 (42_sync_calc.md R78). -/
theorem resolve_syncAssertRd_of_gt (c : Cfg) {p : Int} (h : 25 < p) :
    resolve c (.syncAssertRd p) = resolve c (.syncAssertWr p 0) := by
  rw [resolve, resolve, periodResponse, periodResponse]
  cases hq : checkPeriod c p with
  | none => rfl
  | some q =>
    obtain ⟨-, -, rfl⟩ := checkPeriod_eq_some hq
    exact if_neg (by unfold fastestMax; omega)

/-! ## The pseudo-instructions (30_encoding.md R54) -/

theorem syncDeskew_firstCount {c : Cfg} {p : Int} {d : Count} (h : firstCount (resolve c (.syncDeskew p)) = some d) :
    fitsOperandA p = true ∧ d.toNat ≤ 255 := by
  rw [resolve, periodResponse] at h
  cases hq : checkPeriod c p with
  | none => rw [hq] at h; cases h
  | some q =>
    rw [hq] at h
    cases h
    exact ⟨fitsOperandA_of_checkPeriod hq, deskewOf_le q⟩

/-- `SYNC_TIMING p` with no state in it: the four counts one after the other under one configuration. -/
theorem syncTiming_eq {p : Int} (hp : fitsOperandA p = true) (s : State) :
    syncTiming s p =
      (firstCount (resolve s.cfg (.syncDeskew p))).bind fun d =>
      (firstCount (resolve s.cfg (.syncHold p))).bind fun h =>
      (firstCount (resolve s.cfg (.syncAssertWr p d.toNat))).bind fun aw =>
      (firstCount (resolve s.cfg (.syncAssertRd p))).bind fun ar =>
      some { deskew := d, hold := h, assertWr := aw, assertRd := ar } := by
  have hdeskew : (Instr.syncDeskew p).wellFormed = true := hp
  have hhold : (Instr.syncHold p).wellFormed = true := hp
  have hrd : (Instr.syncAssertRd p).wellFormed = true := hp
  rw [syncTiming, request_eq hdeskew, Option.bind_map]
  refine Option.bind_congr fun d hd => ?_
  have hwr : (Instr.syncAssertWr p d.toNat).wellFormed = true :=
    wellFormed_iff.2 ⟨hp, Nat.lt_succ_of_le (syncDeskew_firstCount hd).2⟩
  simp only [Function.comp_apply, request_eq hhold, request_eq hwr, request_eq hrd, Option.bind_map, Function.comp_def,
    respond_cfg, present_cfg]

/-- Settles O41: under the one configuration that the four requests share, a count missing in any place leaves no
result. -/
theorem syncTimingIsItsFourRequests : Obligations.SyncTimingIsItsFourRequests := by
  refine ⟨fun s p d h aw ar hd hh haw har => ?_, fun s p d hlo hhi hd hfail => ?_, fun s p hlo hhi hd => ?_⟩
  · obtain ⟨hp, hfits⟩ := syncDeskew_firstCount (firstCount_of_exec_ok hd)
    refine ⟨hfits, ?_⟩
    simp only [syncTiming_eq hp, firstCount_of_exec_ok hd, firstCount_of_exec_ok hh, firstCount_of_exec_ok haw,
      firstCount_of_exec_ok har, Option.bind_some]
  · rw [syncTiming_eq (fitsOperandA_iff.2 ⟨hlo, hhi⟩), firstCount_of_exec_ok hd, Option.bind_some]
    rcases hfail with hwr | hrd
    · simp only [firstCount_of_exec_error hwr, Option.bind_none, Option.bind_fun_none]
    · simp only [firstCount_of_exec_error hrd, Option.bind_none, Option.bind_fun_none]
  · rw [syncTiming_eq (fitsOperandA_iff.2 ⟨hlo, hhi⟩), firstCount_of_exec_error hd, Option.bind_none]

/-- Settles O42: a class's index is a row of the ROM, and the general read is the write assertion with deskew 0. -/
theorem namedClassAndGeneralReadAsk : Obligations.NamedClassAndGeneralReadAsk := by
  refine ⟨fun s n => ?_, fun s p h25 hmax => ?_⟩
  · have hi : classIndex n < 5 := by cases n <;> decide
    have hwf : (Instr.asyncTiming (classIndex n)).wellFormed = true := by cases n <;> decide
    refine ⟨_, _, _, _, memRead_row s.cfg hi, ?_⟩
    rw [asyncTimingByName, serve_encode hwf, resolve, speedClass_of_mem (by omega) (by omega)]
    rfl
  · have hp : fitsOperandA p = true := fitsOperandA_iff.2 ⟨by omega, hmax⟩
    have hwf : (Instr.syncAssertWr p 0).wellFormed = true := wellFormed_iff.2 ⟨hp, Nat.zero_lt_succ 255⟩
    refine ⟨(resolve s.cfg (.syncAssertWr p 0)).wires, serve_encode hwf s, ?_⟩
    rw [← resolve_syncAssertRd_of_gt s.cfg h25]
    exact exec_eq_respond_resolve _ s

end Sys2Proof.Proofs
end

section
/-! PROOFS. ASYNC_TIMING (40_async_lookup.md R59 to R62): the response to an index inside and outside 0..4, and that the
ROM alone determines it. -/

namespace Sys2Proof.Proofs
open Sys2Proof.Machine Sys2Proof.Laws

/-! ## The response to an index -/

theorem resolve_asyncTiming_of_mem (c : Cfg) {a : Int} (h0 : 0 ≤ a) (h4 : a ≤ 4) :
    resolve c (.asyncTiming a) = rowResponse (rowAt c a.toNat) := by
  rw [resolve, speedClass_of_mem h0 h4, Option.elim_some]

theorem resolve_asyncTiming_of_not_mem (c : Cfg) {a : Int} (h : a < 0 ∨ 4 < a) :
    resolve c (.asyncTiming a) = .invalidConfiguration := by
  rw [resolve, speedClass_of_not_mem h, Option.elim_none]

theorem exec_asyncTiming_of_mem (s : State) {a : Int} (h0 : 0 ≤ a) (h4 : a ≤ 4) :
    exec (.asyncTiming a) s = .next (s.respond (rowResponse (rowAt s.cfg a.toNat))) := by
  rw [exec_eq_respond_resolve, resolve_asyncTiming_of_mem s.cfg h0 h4]

theorem exec_asyncTiming_of_not_mem (s : State) {a : Int} (h : a < 0 ∨ 4 < a) :
    exec (.asyncTiming a) s = .next (s.respond .invalidConfiguration) := by
  rw [exec_eq_respond_resolve, resolve_asyncTiming_of_not_mem s.cfg h]

/-! ## The ROM alone determines it -/

/-- Equal ROMs have equal rows: `MemRead` of a whole row spells its four fields. -/
theorem rowAt_eq_of_romOf_eq {c c' : Cfg} (h : romOf c = romOf c') {i : Nat} (hi : i < 5) : rowAt c i = rowAt c' i := by
  have hcells := memRead_row c hi
  rw [h, memRead_row c' hi] at hcells
  obtain ⟨hassert, hdeskew, hhold, hglitch⟩ : _ ∧ _ ∧ _ ∧ _ := by simpa using hcells.symm
  exact (AsyncRow.mk.injEq ..).mpr ⟨hassert, hdeskew, hhold, hglitch⟩

theorem resolve_asyncTiming_eq_of_romOf_eq {c c' : Cfg} (h : romOf c = romOf c') (a : Int) :
    resolve c (.asyncTiming a) = resolve c' (.asyncTiming a) := by
  by_cases ha : a < 0 ∨ 4 < a
  · rw [resolve_asyncTiming_of_not_mem c ha, resolve_asyncTiming_of_not_mem c' ha]
  · obtain ⟨h0, h4⟩ : 0 ≤ a ∧ a ≤ 4 := by omega
    rw [resolve_asyncTiming_of_mem c h0 h4, resolve_asyncTiming_of_mem c' h0 h4, rowAt_eq_of_romOf_eq h (by omega)]

/-! ## The statements -/

/-- Settles O1: the row that answers an accepted index consists of the ROM's cells, and the common outputs are the
ports' form of the response, which is the same under both ROMs. -/
theorem asyncTimingReturnsItsRowExactly : Obligations.AsyncTimingReturnsItsRowExactly := by
  refine ⟨fun s a h0 h4 => ?_, fun s s' a hrom => ?_⟩
  · have hcell {f : Nat} (hf : f < 4) : s.rom.read (4 * a.toNat + f) = some (rowField (rowAt s.cfg a.toNat) f) :=
      romOf_read_row s.cfg (by omega) hf
    exact ⟨_, _, _, _, hcell (f := 0) (by decide), hcell (f := 1) (by decide), hcell (f := 2) (by decide),
      hcell (f := 3) (by decide), exec_asyncTiming_of_mem s h0 h4⟩
  · refine ⟨(resolve s.cfg (.asyncTiming a)).wires, exec_eq_respond_resolve _ s, ?_⟩
    rw [resolve_asyncTiming_eq_of_romOf_eq hrom a]
    exact exec_eq_respond_resolve _ s'

/-- Settles O3: an index outside 0..4 is answered before the ROM is addressed, and an operation that completes is not
stopped by a fault. -/
theorem asyncTimingRejectsOtherIndices : Obligations.AsyncTimingRejectsOtherIndices := by
  refine ⟨fun s a h => exec_asyncTiming_of_not_mem s h, fun s a hfault => ?_⟩
  rw [exec_eq_respond_resolve] at hfault
  cases hfault

/-- Settles O2: rows 0 and 2 are constants in every configuration (10_state.md R18). -/
theorem asyncTimingRowsZeroAndTwo : Obligations.AsyncTimingRowsZeroAndTwo :=
  fun s => ⟨exec_asyncTiming_of_mem s (a := 0) (by decide) (by decide),
    exec_asyncTiming_of_mem s (a := 2) (by decide) (by decide)⟩

end Sys2Proof.Proofs
end

section
/-! PROOFS. The period check that the five period operations share (41_sync_select.md R64), and SYNC_DESKEW and SYNC_HOLD
(R63, R65 to R67): which count each range of the periods selects, and how the two selections go together. -/

namespace Sys2Proof.Proofs
open Sys2Proof.Machine Sys2Proof.Laws

/-! ## The period check (41_sync_select.md R64) -/

/-- 00_scope.md R8 (d). -/
theorem periodMax_bounds (c : Cfg) : 80 ≤ c.periodMax ∧ c.periodMax ≤ 32767 := by
  obtain ⟨-, -, hlo, hhi, -⟩ := c.wf
  exact ⟨hlo, hhi⟩

theorem periodResponse_of_mem {c : Cfg} {p : Int} (h0 : 0 ≤ p) (hmax : p ≤ c.periodMax) (f : Nat → Response) :
    periodResponse c p f = f p.toNat := by
  rw [periodResponse, checkPeriod_of_mem h0 hmax, Option.elim_some]

theorem periodResponse_of_not_mem {c : Cfg} {p : Int} (h : p < 0 ∨ (c.periodMax : Int) < p) (f : Nat → Response) :
    periodResponse c p f = .invalidConfiguration := by
  rw [periodResponse, checkPeriod_of_not_mem h, Option.elim_none]

section
variable {s : State} {i : Instr} {p : Int} {f : Nat → Response} (hi : resolve s.cfg i = periodResponse s.cfg p f)
include hi

/-- An operation behind the check answers an accepted period with its own response. -/
theorem exec_of_period_mem (h0 : 0 ≤ p) (hmax : p ≤ s.cfg.periodMax) : exec i s = .next (s.respond (f p.toNat)) := by
  rw [exec_eq_respond_resolve, hi, periodResponse_of_mem h0 hmax]

/-- An operation behind the check answers any other period with the error, whatever it is. -/
theorem exec_of_period_not_mem (h : p < 0 ∨ (s.cfg.periodMax : Int) < p) :
    exec i s = .next (s.respond .invalidConfiguration) := by
  rw [exec_eq_respond_resolve, hi, periodResponse_of_not_mem h]

end

/-! ## The two selections (41_sync_select.md R63, R65) -/

theorem deskewOf_cases (q : Nat) : (q < 35 ∧ deskewOf q = 2) ∨ (35 ≤ q ∧ deskewOf q = 5) := by
  unfold deskewOf
  split
  next h => exact .inl ⟨h, rfl⟩
  next h => exact .inr ⟨Nat.le_of_not_lt h, rfl⟩

theorem holdOf_cases (q : Nat) :
    (q = 25 ∧ holdOf q = 2) ∨ (q < 35 ∧ q ≠ 25 ∧ holdOf q = 3) ∨ (35 ≤ q ∧ holdOf q = 5) := by
  unfold holdOf
  split_ifs with hlt h25
  · exact .inl ⟨h25, rfl⟩
  · exact .inr (.inl ⟨hlt, h25, rfl⟩)
  · exact .inr (.inr ⟨Nat.le_of_not_lt hlt, rfl⟩)

theorem deskewOf_eq_five_iff (q : Nat) : deskewOf q = 5 ↔ 35 ≤ q := by
  obtain ⟨hq, hd⟩ | ⟨hq, hd⟩ := deskewOf_cases q
  · simp [hd, hq]
  · simp [hd, hq]

theorem holdOf_eq_five_iff (q : Nat) : holdOf q = 5 ↔ 35 ≤ q := by
  obtain ⟨rfl, hh⟩ | ⟨hq, -, hh⟩ | ⟨hq, hh⟩ := holdOf_cases q
  · simp [hh]
  · simp [hh, hq]
  · simp [hh, hq]

theorem holdOf_eq_two_iff (q : Nat) : holdOf q = 2 ↔ q = 25 := by
  obtain ⟨rfl, hh⟩ | ⟨-, hq, hh⟩ | ⟨hq, hh⟩ := holdOf_cases q
  · simp [hh]
  · simp [hh, hq]
  · have h25 : q ≠ 25 := by omega
    simp [hh, h25]

theorem deskewOf_of_lt {q : Nat} (h : q < 35) : deskewOf q = 2 := if_pos h

theorem holdOf_of_lt {q : Nat} (h : q < 35) (h25 : q ≠ 25) : holdOf q = 3 := (if_pos h).trans (if_neg h25)

/-! ## The two operations -/

section
variable {s : State} {p : Int}

theorem exec_syncDeskew_of_mem (h0 : 0 ≤ p) (hmax : p ≤ s.cfg.periodMax) :
    exec (.syncDeskew p) s = .next (s.respond (oneCount (deskewOf p.toNat))) :=
  exec_of_period_mem (f := fun q => oneCount (deskewOf q)) rfl h0 hmax

theorem exec_syncHold_of_mem (h0 : 0 ≤ p) (hmax : p ≤ s.cfg.periodMax) :
    exec (.syncHold p) s = .next (s.respond (oneCount (holdOf p.toNat))) :=
  exec_of_period_mem (f := fun q => oneCount (holdOf q)) rfl h0 hmax

theorem exec_syncDeskew_of_lt (h0 : 0 ≤ p) (hmax : p ≤ s.cfg.periodMax) (h : p < 35) :
    exec (.syncDeskew p) s = .next (s.respond (oneCount 2)) := by
  rw [exec_syncDeskew_of_mem h0 hmax, deskewOf_of_lt (by omega)]

theorem exec_syncHold_of_lt (h0 : 0 ≤ p) (hmax : p ≤ s.cfg.periodMax) (h : p < 35) (h25 : p ≠ 25) :
    exec (.syncHold p) s = .next (s.respond (oneCount 3)) := by
  rw [exec_syncHold_of_mem h0 hmax, holdOf_of_lt (by omega) (by omega)]

end

/-! ## The statements -/

/-- Settles O4: the accepted period selects on its side of the threshold, and the shared check rejects the rest. -/
theorem syncDeskewSelectsByThreshold : Obligations.SyncDeskewSelectsByThreshold := by
  refine fun s p => ⟨exec_syncDeskew_of_lt, fun h0 hmax h35 => ?_, exec_of_period_not_mem rfl⟩
  rw [exec_syncDeskew_of_mem h0 hmax, (deskewOf_eq_five_iff _).2 (by omega)]
  rfl

/-- Settles O5: 25 is an accepted period under every configuration, since PERIOD_MAX is at least 80. -/
theorem syncHoldSelectsThreeWays : Obligations.SyncHoldSelectsThreeWays := by
  refine fun s p => ⟨?_, exec_syncHold_of_lt, fun h0 hmax h35 => ?_, exec_of_period_not_mem rfl⟩
  · rintro rfl
    have hmax := (periodMax_bounds s.cfg).1
    exact exec_syncHold_of_mem (by decide) (by omega)
  · rw [exec_syncHold_of_mem h0 hmax, (holdOf_eq_five_iff _).2 (by omega)]
    rfl

/-- Settles O7: both selections are 5 exactly from the threshold up, which makes them 5 together. -/
theorem deskewAndHoldAgreeAtTheThreshold : Obligations.DeskewAndHoldAgreeAtTheThreshold := by
  intro s p h0 hmax
  have hthreshold : 35 ≤ p.toNat ↔ 35 ≤ p := by omega
  have hfastest : p.toNat = 25 ↔ p = 25 := by omega
  refine ⟨deskewOf p.toNat, holdOf p.toNat, exec_syncDeskew_of_mem h0 hmax, exec_syncHold_of_mem h0 hmax, ?_, ?_,
    (deskewOf_eq_five_iff _).trans (holdOf_eq_five_iff _).symm, (deskewOf_eq_five_iff _).trans hthreshold,
    (holdOf_eq_two_iff _).trans hfastest⟩
  · exact (deskewOf_cases _).imp And.right And.right
  · exact (holdOf_cases _).imp And.right (.imp (fun h => h.2.2) And.right)

/-- Settles O8: each of the five operations answers behind the one check. -/
theorem periodCheckRejectsForAllFive : Obligations.PeriodCheckRejectsForAllFive := by
  intro s p d
  obtain ⟨hlo, hhi⟩ := periodMax_bounds s.cfg
  refine ⟨hlo, hhi, fun h i hi => ?_⟩
  have hcheck : ∃ f, resolve s.cfg i = periodResponse s.cfg p f := by
    rcases hi with rfl | rfl | rfl | rfl | rfl <;> exact ⟨_, rfl⟩
  obtain ⟨f, hf⟩ := hcheck
  exact exec_of_period_not_mem hf h

/-- Settles O6: the periods below 25 are accepted under every configuration, and below the threshold only 25 is told
apart. -/
theorem periodsBelowTwentyFiveFollowThePolicies : Obligations.PeriodsBelowTwentyFiveFollowThePolicies := by
  intro s p h0 h24
  have hbound := (periodMax_bounds s.cfg).1
  have hmax : p ≤ s.cfg.periodMax := by omega
  exact ⟨exec_syncDeskew_of_lt h0 hmax (by omega), exec_syncHold_of_lt h0 hmax (by omega) (by omega)⟩

end Sys2Proof.Proofs
end

section
/-! PROOFS. The synchronous cycle calculator (42_sync_calc.md): the laws of the conversion (R68 to R70), the assertion
budget of either sign (R71 to R73, R77), and the read assertion (R74 to R76, R78). -/

namespace Sys2Proof.Proofs
open Sys2Proof.Machine Sys2Proof.Laws

/-! ## The laws of the conversion (42_sync_calc.md R70) -/

section
variable (c : Cfg)

/-- 00_scope.md R8 (a): the conversion divides by no zero. -/
theorem clkDen_pos : 0 < c.clkDen := by
  obtain ⟨-, hden, -⟩ := c.wf
  exact hden

/-- R70 (b), the lower side: the added half of an odd denominator is floored, and the bound is strict all the same. -/
theorem two_mul_lt_two_mul_clks_add (p : Nat) : 2 * (p * c.clkNum) < 2 * (clks c p * c.clkDen) + c.clkDen := by
  have hfloor : p * c.clkNum + c.clkDen / 2 < clks c p * c.clkDen + c.clkDen := Nat.lt_div_mul_add (clkDen_pos c)
  omega

/-- R70 (b), the upper side. -/
theorem two_mul_clks_le_two_mul_add (p : Nat) : 2 * (clks c p * c.clkDen) ≤ 2 * (p * c.clkNum) + c.clkDen := by
  have hfloor : clks c p * c.clkDen ≤ p * c.clkNum + c.clkDen / 2 := Nat.div_mul_le_self _ _
  omega

/-- R70 (c): an odd multiple of the denominator is even only if the denominator is, and then the added half is exact. -/
theorem clks_of_tie {p k : Nat} (h : 2 * (p * c.clkNum) = (2 * k + 1) * c.clkDen) :
    c.clkDen % 2 = 0 ∧ clks c p = k + 1 := by
  have hodd : (2 * k + 1) * c.clkDen = 2 * (k * c.clkDen) + c.clkDen := by ring
  have heven : c.clkDen % 2 = 0 := by omega
  have hexact : p * c.clkNum + c.clkDen / 2 = (k + 1) * c.clkDen := by
    rw [Nat.add_one_mul]
    omega
  exact ⟨heven, Nat.div_eq_of_eq_mul_left (clkDen_pos c) hexact⟩

/-- R70 (d). -/
theorem clks_zero : clks c 0 = 0 := by
  rw [clks, Nat.zero_mul, Nat.zero_add]
  exact Nat.div_eq_of_lt (Nat.div_lt_self (clkDen_pos c) Nat.one_lt_two)

/-- R70 (a): the result field holds every accepted period's count. -/
theorem toNat_ofNat_clks {p : Nat} (h : p ≤ c.periodMax) : (BitVec.ofNat 16 (clks c p)).toNat = clks c p :=
  (BitVec.toNat_ofNat _ _).trans (Nat.mod_eq_of_lt (Nat.lt_succ_of_le (clks_le_65535 c h)))

end

/-! ## The assertion budget (42_sync_calc.md R71, R73) -/

theorem assertBudget_neg_iff (c : Cfg) (p d : Nat) : assertBudget c p d < 0 ↔ clks c p + 1 < d + c.fpgaOverhead := by
  unfold assertBudget
  omega

theorem assertionResponse_of_neg {n : Int} (h : n < 0) : assertionResponse n = .invalidConfiguration := if_pos h

/-- An accepted period's non-negative budget is answered with its half, which the result field holds. -/
theorem assertionResponse_of_nonneg {c : Cfg} {p d : Nat} (hp : p ≤ c.periodMax) (h : 0 ≤ assertBudget c p d) :
    ∃ v : Count, (v.toNat : Int) = assertBudget c p d / 2 ∧ assertionResponse (assertBudget c p d) = oneCount v := by
  refine ⟨BitVec.ofNat 16 ((assertBudget c p d).toNat / 2), ?_, if_neg (Int.not_lt.2 h)⟩
  rw [BitVec.toNat_ofNat, Nat.mod_eq_of_lt (assertBudget_half_lt c d hp)]
  omega

/-! ## The three operations -/

section
variable {s : State} {p : Int}

theorem exec_periodToClks_of_mem (h0 : 0 ≤ p) (hmax : p ≤ s.cfg.periodMax) :
    exec (.periodToClks p) s = .next (s.respond (oneCount (BitVec.ofNat 16 (clks s.cfg p.toNat)))) :=
  exec_of_period_mem (f := fun q => oneCount (BitVec.ofNat 16 (clks s.cfg q))) rfl h0 hmax

/-- The count on the outputs of PERIOD_TO_CLKS is the conversion. -/
theorem toNat_of_exec_periodToClks {v : Count} (h0 : 0 ≤ p) (hmax : p ≤ s.cfg.periodMax)
    (h : exec (.periodToClks p) s = .next { s with rsp := ⟨false, v, 0, 0, 0⟩ }) : v.toNat = clks s.cfg p.toNat := by
  rw [exec_periodToClks_of_mem h0 hmax] at h
  cases h
  exact toNat_ofNat_clks s.cfg (by omega)

theorem exec_syncAssertWr_of_mem (d : Nat) (h0 : 0 ≤ p) (hmax : p ≤ s.cfg.periodMax) :
    exec (.syncAssertWr p d) s = .next (s.respond (assertionResponse (assertBudget s.cfg p.toNat d))) :=
  exec_of_period_mem (f := fun q => assertionResponse (assertBudget s.cfg q d)) rfl h0 hmax

theorem exec_syncAssertWr_of_nonneg {d : Nat} (h0 : 0 ≤ p) (hmax : p ≤ s.cfg.periodMax)
    (hn : 0 ≤ assertBudget s.cfg p.toNat d) :
    ∃ v : Count, (v.toNat : Int) = assertBudget s.cfg p.toNat d / 2 ∧
      exec (.syncAssertWr p d) s = .next (s.respond (oneCount v)) := by
  obtain ⟨v, hv, hresponse⟩ := assertionResponse_of_nonneg (by omega) hn
  exact ⟨v, hv, by rw [exec_syncAssertWr_of_mem d h0 hmax, hresponse]⟩

theorem exec_syncAssertWr_of_neg {d : Nat} (h0 : 0 ≤ p) (hmax : p ≤ s.cfg.periodMax)
    (hn : assertBudget s.cfg p.toNat d < 0) :
    exec (.syncAssertWr p d) s = .next (s.respond .invalidConfiguration) := by
  rw [exec_syncAssertWr_of_mem d h0 hmax, assertionResponse_of_neg hn]

/-- 42_sync_calc.md R75, R76: the fastest class is accepted under every configuration, since PERIOD_MAX is at least 80. -/
theorem exec_syncAssertRd_of_le (h0 : 0 ≤ p) (h25 : p ≤ 25) :
    exec (.syncAssertRd p) s = .next (s.respond (oneCount syncAssertRdFast)) := by
  have hmax := (periodMax_bounds s.cfg).1
  have hfast : p.toNat ≤ fastestMax := by unfold fastestMax; omega
  rw [exec_of_period_mem (i := .syncAssertRd p) rfl h0 (by omega), if_pos hfast]

end

/-! ## The statements -/

/-- Settles O9: the conversion of an accepted period, read back from its field, and the shared check for the rest. -/
theorem periodToClksReturnsTheConversion : Obligations.PeriodToClksReturnsTheConversion :=
  fun s _ => ⟨fun h0 hmax => ⟨_, toNat_ofNat_clks s.cfg (by omega), exec_periodToClks_of_mem h0 hmax⟩,
    exec_of_period_not_mem rfl⟩

/-- Settles O10: the operation's counts are the conversion's, and the conversion obeys the laws on every period. -/
theorem conversionLaws : Obligations.ConversionLaws := by
  intro s
  refine ⟨clkDen_pos s.cfg, fun p h => exec_of_period_not_mem rfl (.inl h),
    fun p => BitVec.ofNat 16 (clks s.cfg p), fun p hp => ?_, fun p hp => ?_, fun p k hp htie => ?_, ?_,
    fun p q hpq hq => ?_⟩
  · exact exec_periodToClks_of_mem (Int.natCast_nonneg p) (Int.ofNat_le.2 hp)
  · rw [toNat_ofNat_clks s.cfg hp]
    exact ⟨two_mul_lt_two_mul_clks_add s.cfg p, two_mul_clks_le_two_mul_add s.cfg p⟩
  · rw [toNat_ofNat_clks s.cfg hp]
    exact clks_of_tie s.cfg htie
  · exact congrArg (BitVec.ofNat 16) (clks_zero s.cfg)
  · rw [toNat_ofNat_clks s.cfg (hpq.trans hq), toNat_ofNat_clks s.cfg hq]
    exact clks_mono s.cfg hpq

/-- Settles O11: the budget's sign decides the answer, whatever deskew the caller passes. -/
theorem syncAssertWrSplitsTheBudget : Obligations.SyncAssertWrSplitsTheBudget := by
  refine fun s p d => ⟨?_, exec_of_period_not_mem rfl⟩
  rintro h0 hmax _ rfl
  exact ⟨exec_syncAssertWr_of_nonneg h0 hmax, exec_syncAssertWr_of_neg h0 hmax, assertBudget_neg_iff s.cfg p.toNat d⟩

/-- Settles O13: the two operations have the same response, and an operation is its response. -/
theorem readAssertionIsWriteWithZeroDeskew : Obligations.ReadAssertionIsWriteWithZeroDeskew := by
  intro s p h
  rw [exec_eq_respond_resolve, exec_eq_respond_resolve, resolve_syncAssertRd_of_gt s.cfg h]

/-- Settles O12: above the fastest class it is the write assertion, whose budget with deskew 0 is the formula's. -/
theorem syncAssertRdSpecialCasesTheFastestClass : Obligations.SyncAssertRdSpecialCasesTheFastestClass := by
  refine fun s p => ⟨exec_syncAssertRd_of_le, fun h25 hmax n hn => ?_, exec_of_period_not_mem rfl⟩
  have h0 : 0 ≤ p := by omega
  have hbudget : n = assertBudget s.cfg p.toNat 0 := by rw [assertBudget, Int.natCast_zero, Int.sub_zero]; exact hn
  rw [hbudget, readAssertionIsWriteWithZeroDeskew s p h25]
  exact ⟨exec_syncAssertWr_of_nonneg h0 hmax, exec_syncAssertWr_of_neg h0 hmax⟩

/-- Settles O14: the premise makes the budget non-negative, and doubling its half gives it back less its
parity. -/
theorem budgetIsMetWithinOneCycle : Obligations.BudgetIsMetWithinOneCycle := by
  intro s p d c t h0 hmax hclks hfits hwr
  have hc := toNat_of_exec_periodToClks h0 hmax hclks
  have hn : 0 ≤ assertBudget s.cfg p.toNat d := by
    rw [← Int.not_lt, assertBudget_neg_iff]
    omega
  obtain ⟨v, hv, hexec⟩ := exec_syncAssertWr_of_nonneg h0 hmax hn
  rw [hexec] at hwr
  cases hwr
  rw [assertBudget] at hv hn
  have hr0 : (s.respond (oneCount v)).rsp.r0 = v := rfl
  refine ⟨rfl, fun hodd => ?_, fun heven => ?_⟩
  · rw [hr0]
    omega
  · rw [hr0]
    omega

end Sys2Proof.Proofs
end

section
/-! PROOFS. SEL_TIMEOUT (43_selection_timeout.md R79, R80): what an operand that spells a flag selects, and that no other
operand is reduced to a flag. -/

namespace Sys2Proof.Proofs
open Sys2Proof.Machine Sys2Proof.Laws

/-! ## The fast-mode flag -/

theorem fastModeFlag_zero : fastModeFlag 0 = some false := if_pos rfl

theorem fastModeFlag_one : fastModeFlag 1 = some true := (if_neg Int.one_ne_zero).trans (if_pos rfl)

/-! ## The operation -/

section
variable (s : State) {a : Int}

theorem exec_selTimeout_of_flag {fast : Bool} (h : fastModeFlag a = some fast) :
    exec (.selTimeout a) s = .next (s.respond (oneCount (if fast then selTimeoutFast else selTimeoutDefault))) := by
  rw [exec_eq_respond_resolve, resolve, h, Option.elim_some]

theorem exec_selTimeout_of_not_flag (h : fastModeFlag a = none) :
    exec (.selTimeout a) s = .next (s.respond .invalidConfiguration) := by
  rw [exec_eq_respond_resolve, resolve, h, Option.elim_none]

end

/-! ## The statements -/

/-- Settles O15: 0 spells false and 1 spells true, and each selects its constant (R79). -/
theorem selTimeoutReturnsTheTwoConstants : Obligations.SelTimeoutReturnsTheTwoConstants :=
  fun s => ⟨exec_selTimeout_of_flag s fastModeFlag_zero, exec_selTimeout_of_flag s fastModeFlag_one⟩

/-- Settles O16: an operand that spells no flag is rejected (R80). -/
theorem selTimeoutRejectsOtherFlags : Obligations.SelTimeoutRejectsOtherFlags :=
  fun s _ h0 h1 => exec_selTimeout_of_not_flag s (fastModeFlag_of_not_flag h0 h1)

end Sys2Proof.Proofs
end

section
/-! PROOFS. The table of causes of the one error (60_exceptions.md R83): which operands an operation rejects, that a line
of the table matches a word exactly if its response is the error, and so that every step leaves the outputs sound (R82;
30_encoding.md R46, R47); and the build that refuses an ill-formed configuration (R96). -/

namespace Sys2Proof.Proofs
open Sys2Proof.Machine Sys2Proof.Laws

/-! ## Which responses are the error -/

theorem oneCount_ne_error (v : Count) : oneCount v ≠ .invalidConfiguration := nofun

theorem rowResponse_ne_error (r : AsyncRow) : rowResponse r ≠ .invalidConfiguration := nofun

theorem assertionResponse_eq_error_iff {n : Int} : assertionResponse n = .invalidConfiguration ↔ n < 0 := by
  refine ⟨fun h => ?_, assertionResponse_of_neg⟩
  by_contra hn
  rw [assertionResponse, if_neg hn] at h
  exact oneCount_ne_error _ h

/-- The periods that `CheckPeriod` rejects (41_sync_select.md R64). -/
def PeriodOutside (c : Cfg) (p : Int) : Prop := p < 0 ∨ (c.periodMax : Int) < p

/-- An operation behind the period check gives the error for a period outside, and otherwise if its own rule does. -/
theorem periodResponse_eq_error_iff {c : Cfg} {p : Int} {f : Nat → Response} :
    periodResponse c p f = .invalidConfiguration ↔ PeriodOutside c p ∨ f p.toNat = .invalidConfiguration := by
  by_cases hp : PeriodOutside c p
  · simp only [periodResponse_of_not_mem hp, hp, true_or]
  · obtain ⟨h0, hmax⟩ : 0 ≤ p ∧ p ≤ c.periodMax := by simpa [PeriodOutside] using hp
    rw [periodResponse_of_mem h0 hmax, or_iff_right hp]

theorem periodResponse_oneCount_eq_error_iff {c : Cfg} {p : Int} {g : Nat → Count} :
    periodResponse c p (fun q => oneCount (g q)) = .invalidConfiguration ↔ PeriodOutside c p :=
  periodResponse_eq_error_iff.trans (or_iff_left (oneCount_ne_error _))

/-! ## Which operands an operation rejects -/

/-- The operands that an operation rejects: the rules that lines E4 to E8 of 60_exceptions.md R83 are drawn from. -/
def OperandsRejected (c : Cfg) : Instr → Prop
  | .asyncTiming a => a < 0 ∨ 4 < a
  | .syncDeskew p => PeriodOutside c p
  | .syncHold p => PeriodOutside c p
  | .periodToClks p => PeriodOutside c p
  | .syncAssertWr p d => PeriodOutside c p ∨ assertBudget c p.toNat d < 0
  | .syncAssertRd p => PeriodOutside c p ∨ (25 < p ∧ assertBudget c p.toNat 0 < 0)
  | .selTimeout a => a ≠ 0 ∧ a ≠ 1

section
variable (c : Cfg)

theorem resolve_asyncTiming_eq_error_iff (a : Int) :
    resolve c (.asyncTiming a) = .invalidConfiguration ↔ a < 0 ∨ 4 < a := by
  refine ⟨fun h => ?_, resolve_asyncTiming_of_not_mem c⟩
  by_contra ha
  rw [resolve_asyncTiming_of_mem c (by omega) (by omega)] at h
  exact rowResponse_ne_error _ h

theorem resolve_syncAssertWr_eq_error_iff (p : Int) (d : Nat) :
    resolve c (.syncAssertWr p d) = .invalidConfiguration ↔ PeriodOutside c p ∨ assertBudget c p.toNat d < 0 :=
  periodResponse_eq_error_iff.trans (or_congr_right assertionResponse_eq_error_iff)

/-- The fastest class answers a constant, so its budget rejects nothing (42_sync_calc.md R76). -/
theorem resolve_syncAssertRd_eq_error_iff (p : Int) :
    resolve c (.syncAssertRd p) = .invalidConfiguration ↔
      PeriodOutside c p ∨ (25 < p ∧ assertBudget c p.toNat 0 < 0) := by
  by_cases h25 : 25 < p
  · rw [resolve_syncAssertRd_of_gt c h25, resolve_syncAssertWr_eq_error_iff, and_iff_right h25]
  · have hfast : p.toNat ≤ fastestMax := by unfold fastestMax; omega
    rw [resolve, periodResponse_eq_error_iff, if_pos hfast]
    simp only [oneCount_ne_error, h25, false_and]

theorem resolve_selTimeout_eq_error_iff (a : Int) :
    resolve c (.selTimeout a) = .invalidConfiguration ↔ a ≠ 0 ∧ a ≠ 1 := by
  constructor
  · intro h
    constructor
    · rintro rfl
      exact oneCount_ne_error _ h
    · rintro rfl
      exact oneCount_ne_error _ h
  · rintro ⟨h0, h1⟩
    rw [resolve, fastModeFlag_of_not_flag h0 h1, Option.elim_none]

/-- An operation's response is the error exactly if it rejects its operands. -/
theorem resolve_eq_error_iff (i : Instr) : resolve c i = .invalidConfiguration ↔ OperandsRejected c i := by
  cases i with
  | asyncTiming a => exact resolve_asyncTiming_eq_error_iff c a
  | syncDeskew p => exact periodResponse_oneCount_eq_error_iff
  | syncHold p => exact periodResponse_oneCount_eq_error_iff
  | periodToClks p => exact periodResponse_oneCount_eq_error_iff
  | syncAssertWr p d => exact resolve_syncAssertWr_eq_error_iff c p d
  | syncAssertRd p => exact resolve_syncAssertRd_eq_error_iff c p
  | selTimeout a => exact resolve_selTimeout_eq_error_iff c a

end

/-! ## The table of causes (60_exceptions.md R83) -/

theorem opNumber_eq_iff {w : Word} {op : BitVec 3} : opNumber w = op.toNat ↔ opField w = op := BitVec.toNat_eq.symm

/-- An ill-formed word is matched by the line of its defect: E1, E2 or E3. -/
theorem rejected_of_illFormed {w : Word} {e : DecodeError} (h : decode w = .error e) (c : Cfg) : Rejected c w := by
  rcases decode_isError_iff.1 ⟨e, h⟩ with h7 | hrsv | ⟨h4, hb⟩
  · exact ⟨.e1, opNumber_eq_iff.2 h7⟩
  · exact ⟨.e2, hrsv⟩
  · exact ⟨.e3, fun hop => h4 (opNumber_eq_iff.1 hop), fun hB => hb (BitVec.toNat_eq.2 hB)⟩

/-- A word that decodes has none of the three defects, so only the lines E4 to E8 can match it. -/
theorem rejected_iff_operand_line {w : Word} {i : Instr} (h : decode w = .ok i) (c : Cfg) :
    Rejected c w ↔
      Cause.e4.Applies c w ∨ Cause.e5.Applies c w ∨ Cause.e6.Applies c w ∨ Cause.e7.Applies c w ∨
      Cause.e8.Applies c w := by
  obtain ⟨hop, hrsv, -, hb⟩ := decode_eq_ok_iff.1 h
  constructor
  · rintro ⟨e, he⟩
    cases e with
    | e1 => exact absurd (hop.symm.trans ((opNumber_eq_iff (op := 7)).1 he)) (opcode_ne_seven i)
    | e2 => exact absurd hrsv he
    | e3 =>
      obtain ⟨hnum, hB⟩ := he
      have h4 : i.opcode ≠ 4 := fun h4 => hnum (opNumber_eq_iff.2 (hop.trans h4))
      exact absurd (hb.trans (b_eq_zero_of_opcode_ne_four h4)) hB
    | e4 | e5 | e6 | e7 | e8 => simp only [he, true_or, or_true]
  · rintro (he | he | he | he | he) <;> exact ⟨_, he⟩

/-- Under each operation, the lines E4 to E8 with its code are the rule by which it rejects its operands. -/
theorem rejected_iff_of_decoded {w : Word} {i : Instr} (h : decode w = .ok i) (c : Cfg) :
    Rejected c w ↔ OperandsRejected c i := by
  obtain ⟨hop, -, ha, hb⟩ := decode_eq_ok_iff.1 h
  have hnum : opNumber w = i.opcode.toNat := opNumber_eq_iff.2 hop
  rw [rejected_iff_operand_line h]
  simp only [Cause.Applies, IsPeriodOp, hnum, ha, hb]
  cases i with
  | asyncTiming a => simp [Instr.opcode, Instr.a, OperandsRejected]
  | syncDeskew p | syncHold p | periodToClks p => simp [Instr.opcode, Instr.a, OperandsRejected, PeriodOutside]
  | syncAssertWr p d =>
    have hlines : p < 0 ∨ (c.periodMax : Int) < p ∨ (0 ≤ p ∧ assertBudget c p.toNat d < 0) ↔
        PeriodOutside c p ∨ assertBudget c p.toNat d < 0 := by unfold PeriodOutside; omega
    simpa [Instr.opcode, Instr.a, Instr.b, OperandsRejected, assertBudget] using hlines
  | syncAssertRd p => simp [Instr.opcode, Instr.a, OperandsRejected, PeriodOutside, assertBudget, or_assoc]
  | selTimeout a => simp [Instr.opcode, Instr.a, OperandsRejected]

theorem resolveWord_eq_error_iff (c : Cfg) (w : Word) : resolveWord c w = .invalidConfiguration ↔ Rejected c w := by
  cases hd : decode w with
  | error e => exact iff_of_true (resolveWord_of_illFormed hd c) (rejected_of_illFormed hd c)
  | ok i => rw [resolveWord_of_decoded hd, resolve_eq_error_iff, rejected_iff_of_decoded hd]

/-! ## The outputs of a step -/

theorem wires_err_iff {r : Response} : r.wires.err = true ↔ r = .invalidConfiguration := by
  cases r <;> simp

/-- Settles O31: the step answers with the word's response, which is the error exactly if a line matches the word. -/
theorem errorExactlyForTheListedCauses : Obligations.ErrorExactlyForTheListedCauses :=
  fun s w hr => ⟨_, step_of_settled hr, wires_err_iff.trans (resolveWord_eq_error_iff s.cfg w)⟩

/-- Every operation code but 0 is answered with at most one count (30_encoding.md R47), whether the word decodes or not. -/
theorem atMostOneCount_resolveWord (c : Cfg) {w : Word} (h : opNumber w ≠ 0) : AtMostOneCount (resolveWord c w) := by
  cases hd : decode w with
  | error e =>
    rw [resolveWord_of_illFormed hd]
    exact atMostOneCount_error
  | ok i =>
    rw [resolveWord_of_decoded hd]
    refine atMostOneCount_resolve c ?_
    rintro a rfl
    obtain ⟨hop, -⟩ := decode_eq_ok_iff.1 hd
    exact h (opNumber_eq_iff.2 hop)

/-- Answering the presented word makes the outputs sound, whatever they were before. -/
theorem sound_respond_resolveWord {s : State} {w : Word} (hr : s.req = .settled w) :
    (s.respond (resolveWord s.cfg w)).Sound := by
  intro v hv
  rw [respond_req, hr] at hv
  cases hv
  simp only [respond_rsp, respond_cfg]
  refine ⟨wires_err_iff.trans (resolveWord_eq_error_iff s.cfg w), fun herr => ?_, fun hop => ?_⟩
  · rw [wires_err_iff.1 herr]
    exact ⟨rfl, rfl, rfl, rfl⟩
  · obtain ⟨e, r0, hwires⟩ := atMostOneCount_resolveWord s.cfg hop
    rw [hwires]
    exact ⟨rfl, rfl, rfl⟩

/-- Settles O32: a step either answers the presented word or finds none, and the ROM of every configuration is in canonical
form. -/
theorem stepKeepsOutputsSound : Obligations.StepKeepsOutputsSound := by
  intro s t _ h
  refine ⟨?_, rom_wf t⟩
  obtain ⟨w, hr, rfl⟩ | ⟨hr, rfl⟩ := step_cases h
  · exact sound_respond_resolveWord hr
  · exact sound_of_unsettled hr

/-! ## Building the block (60_exceptions.md R96) -/

theorem build_of_wellFormed {c : CfgData} (h : c.WellFormed) :
    State.build c = .next { State.reset with cfg := { toCfgData := c, wf := h } } := dif_pos h

theorem build_of_not_wellFormed {c : CfgData} (h : ¬ c.WellFormed) : State.build c = .refused .illFormedConfiguration :=
  dif_neg h

/-- Settles O40: the block built is the reset state under the given configuration, and at reset no request is presented
(log 3). -/
theorem buildRefusesExactlyIllFormedConfigurations : Obligations.BuildRefusesExactlyIllFormedConfigurations :=
  fun _ => ⟨fun h => ⟨_, build_of_wellFormed h, rfl, reset_req⟩, build_of_not_wellFormed⟩

end Sys2Proof.Proofs
end

section
/-! PROOFS. The block between reset and the end of a run (70_reset_and_hazards.md): a step always goes on, a held request
holds its outputs (R98), a request served is answered by the configuration and the word alone, and so neither the requests
before it (R101, R102; 60_exceptions.md R87) nor a reset (R97) leave a trace in its response. -/

namespace Sys2Proof.Proofs
open Sys2Proof.Machine Sys2Proof.Laws

/-! ## One step -/

/-- Settles O26: unsettled inputs have no word to evaluate, and the model's answer to that is the next free value (log 4). -/
theorem unsettledRequestGivesFreeOutputs : Obligations.UnsettledRequestGivesFreeOutputs := by
  intro s hr
  rw [step_of_unsettled hr, answerUnsettled]

/-- Settles O25: the decoded word selects the step's operation, and presenting a word writes the request inputs only. -/
theorem stepRunsTheDecodedOperation : Obligations.StepRunsTheDecodedOperation := by
  refine ⟨fun s w i hr hd => step_of_decoded hr hd, fun s w => rfl, fun s n w => ?_⟩
  rw [withFetchWord_eq, State.present, tableWord]

/-- No step is a fault or a refusal: a settled word gets its response, unsettled inputs the next free value. -/
theorem step_goes_on (s : State) : ∃ t, step s = .next t := by
  cases hr : s.req with
  | unsettled => exact ⟨_, unsettledRequestGivesFreeOutputs s hr⟩
  | settled w => exact ⟨_, step_of_settled hr⟩

/-- Settles O27: a step goes on whether the inputs are settled or not, and an operation completes with its response. -/
theorem everyStepAnswers : Obligations.EveryStepAnswers :=
  ⟨step_goes_on, fun i s => ⟨_, exec_eq_respond_resolve i s⟩⟩

/-- Settles O34: the first step keeps the configuration and the word, so the second gives the same response again, and it
replaces the outputs by what they already are. -/
theorem outputsHoldWhileTheRequestDoes : Obligations.OutputsHoldWhileTheRequestDoes := by
  intro s t w hr h
  have ht : t = s.respond (resolveWord s.cfg w) := by
    rw [step_of_settled hr] at h
    cases h
    rfl
  have hreq : t.req = .settled w := (step_keeps_req h).trans hr
  calc step t = .next (t.respond (resolveWord t.cfg w)) := step_of_settled hreq
    _ = .next t := by rw [step_keeps_cfg h, ht, respond_respond]

/-! ## Requests, one after another -/

/-- Every request is answered, and the block afterwards holds its word and its response (R98, R102). -/
theorem serve_eq_respond (s : State) (w : Word) :
    serve s w = .next ((s.present w).respond (resolveWord s.cfg w)) := by
  rw [serve, step_of_settled (present_req s w), present_cfg]

/-- A run goes on after its first request, error or not, from the block that request leaves. -/
theorem serveAll_cons (s : State) (w : Word) (ws : List Word) :
    serveAll s (w :: ws) =
      resolveWord s.cfg w :: serveAll ((s.present w).respond (resolveWord s.cfg w)) ws := by
  simp only [serveAll, serve_eq_respond, respond_rsp, response_wires]

/-- The responses of a run, from any state: only its configuration matters, and every request keeps that. -/
theorem serveAll_eq_map (s : State) (ws : List Word) : serveAll s ws = ws.map (resolveWord s.cfg) := by
  induction ws generalizing s with
  | nil => rfl
  | cons w ws ih => rw [serveAll_cons, ih, respond_cfg, present_cfg, List.map_cons]

/-- Settles O35: the function is `resolveWord`, by induction on the requests of the run. -/
theorem runsAreAnsweredRequestByRequest : Obligations.RunsAreAnsweredRequestByRequest :=
  ⟨resolveWord, serveAll_eq_map⟩

/-! ## After a reset -/

/-- Settles O43: both blocks have the configuration `s.cfg`, and the response to `w` depends on nothing else of them. -/
theorem resetChangesNoResponse : Obligations.ResetChangesNoResponse :=
  fun s w => ⟨(resolveWord s.cfg w).wires, serve_eq_respond s w, serve_eq_respond { State.reset with cfg := s.cfg } w⟩

end Sys2Proof.Proofs
end
